-- ==== Sys2Proof/Word.lean ====
section
/-! DEFINITION. The words of the TC-2's ports and the small operand types of its commands. -/

namespace Sys2Proof

/-- A 16-bit word: of a stream, of a port, of the font store (11, opening; 00 section 6). -/
abbrev Word := BitVec 16

/-- One byte of a composition link (R132). -/
abbrev Byte := BitVec 8

/-- The kinds a unit's FAULT answer carries (R162; 11.4). -/
inductive FaultAnswer where
  | filmOut
  | jam
  | lamp
deriving DecidableEq, Repr

/-- The two sensed sockets of a bank position (R147). -/
inductive Socket where
  | board
  | cartridge
deriving DecidableEq, Repr

/-- One entry of a LOAD CLASS LIST block, as its four words stand (11.3). -/
structure ClassWords where
  matchWord : Word
  careWord : Word
  rankWord : Word
  kindWord : Word
deriving DecidableEq, Repr

end Sys2Proof
end

