-- ==== Sys2Proof/Config.lean ====
section
/-! DEFINITION. The sizes the manual fixes, and the values it leaves open. -/

namespace Sys2Proof

/-- Words of one bank (R147). -/
def Config.bankWords : Nat := 262144

/-- Entries of an input ring (R134). -/
def Config.ringSize : Nat := 256

/-- The ready output goes off when the ring count reaches this (R136). -/
def Config.readyOffAt : Nat := 224

/-- The ready output goes on when the ring count falls to this (R136). -/
def Config.readyOnAt : Nat := 96

/-- Line records of the pool (R116, R130). -/
def Config.poolLines : Nat := 512

/-- Lines a galley that is not EXPOSING may hold (R115). -/
def Config.lineLimit : Nat := 96

/-- Elements of a line (R80). -/
def Config.lineElements : Nat := 160

/-- Characters of a word buffer and of a measure request (R55, R59). -/
def Config.wordChars : Nat := 64

/-- Entries of the unit's glyph cache (R166). -/
def Config.cacheEntries : Nat := 64

/-- What a counter of the part saturates at (R19, R50, R87). -/
def Config.saturation : Nat := 65535

/-- The protect mark of a cartridge (R148; 11.5). -/
def Config.protectMark : Word := 0xC3A5#16

/-- The word that an address of board RAM or of a cartridge holds when its contents list does not name it
(DESIGN CHOICE, log 2). It is also what an ABSENT bank delivers (R147). -/
def Config.blankWord : Word := 0xFFFF#16

/-- FREE VALUE (log 9): a word the install copy reads at an offset past the end of its bank (R175). It is applied
to the state's free-value counter and has no body. -/
opaque Config.wordPastBank : Nat → Word

/-- FREE VALUE (log 10): how many words a WRITE STORE had stored when a presence change or a power-on reset ended it
(R150, R156). It is applied to the state's free-value counter and has no body. -/
opaque Config.wordsMoved : Nat → Nat

end Sys2Proof
end

