-- ==== Sys2Proof/Syntax.lean ====
section
/-! DEFINITION. The commands and events of the TC-2, one constructor for each row of spec/opcode_table.json. -/

namespace Sys2Proof

/-- A command or event taken by the TC-2. The row's name and its rule stand beside each constructor. -/
inductive Instr where
  /-- POWER_ON_RESET (R160). The sockets and the outside lines are those that State holds (log 3). -/
  | powerOnReset
  /-- INSTALL_FONT (R5): bank word and word offset. -/
  | installFont (bank : Word) (offset : BitVec 32)
  /-- RETIRE_FONT (R11): font number. -/
  | retireFont (font : Word)
  /-- READ_STORE (R155): position, offset, count. -/
  | readStore (bank : Word) (offset : BitVec 32) (count : Word)
  /-- WRITE_STORE (R156): position, offset, count and the words. -/
  | writeStore (bank : Word) (offset : BitVec 32) (count : Word) (words : List Word)
  /-- LOAD_CLASS_LIST (R32): entry count and the entries. -/
  | loadClassList (count : Word) (entries : List ClassWords)
  /-- SET_LINK (R140): link, rate, enable choice, stray choice. -/
  | setLink (link rate enable stray : Word)
  /-- KILL_GALLEY (R126): record index. -/
  | killGalley (index : Word)
  /-- RESUME_GALLEY (R126): record index. -/
  | resumeGalley (index : Word)
  /-- SET_CLASS (R126): record index and class. -/
  | setClass (index cls : Word)
  /-- CLEAR_UNIT (R172). -/
  | clearUnit
  /-- READ_STATUS (R157): section. -/
  | readStatus (sec : Word)
  /-- ACKNOWLEDGE_ATTENTION (R159): set of causes. -/
  | acknowledgeAttention (causes : Word)
  /-- LIBRARY_RESET (R161). -/
  | libraryReset
  /-- BAD_COMMAND (R154): a first word that names no command. -/
  | badCommand (first : Word)
  /-- COMMAND_BLOCK_WORD (R154): one word of a block, taken by itself. -/
  | commandBlockWord (word : Word)
  /-- RESPONSE_READ (R154): the station has read the last word of the response. -/
  | responseRead
  /-- READ_STORE_COMPLETE (R155). -/
  | readStoreComplete
  /-- WRITE_STORE_COMPLETE (R156). -/
  | writeStoreComplete
  /-- INSTALL_COPY_READ (R6): one read of the install copy. -/
  | installCopyRead
  /-- HOLD_REQUEST (R152): the station raises the line. -/
  | holdRequest
  /-- HOLD_REQUEST_DROP (R152): the station drops the line. -/
  | holdRequestDrop
  /-- HOLD_READ (R153): a station read under a granted hold. -/
  | holdRead (position : Fin 8) (offset : BitVec 18)
  /-- HOLD_WRITE (R153): a station write under a granted hold. -/
  | holdWrite (position : Fin 8) (offset : BitVec 18) (word : Word)
  /-- PRESENCE_CHANGE (R150): a socket receives a board or cartridge with these contents, or loses it (none). -/
  | presenceChange (position : Fin 8) (socket : Socket) (contents : Option (List (Nat × Word)))
  /-- BYTE_RECEIVED (R132): a frame's byte, whether its parity was in error and whether its stop bit was space. -/
  | byteReceived (link : Fin 4) (byte : Byte) (parityError framingError : Bool)
  /-- LINE_RETURN_TO_MARK (R132). -/
  | lineReturnToMark (link : Fin 4)
  /-- BREAK (R139). -/
  | breakSignal (link : Fin 4)
  /-- FRONT_END_READY_ON (R143). -/
  | frontEndReadyOn (link : Fin 4)
  /-- FRONT_END_READY_OFF (R144). -/
  | frontEndReadyOff (link : Fin 4)
  /-- TRANSMIT_BYTE_SENT (R144): the byte in the shift register has left it. -/
  | transmitByteSent (link : Fin 4)
  /-- SETTER_TURN (R117): the Setter's next turn that is not passed over. -/
  | setterTurn
  /-- UNIT_ACK (R164). -/
  | unitAck
  /-- UNIT_FAULT (R171): a FAULT answer. -/
  | unitFault (kind : FaultAnswer)
  /-- RECORD_TIMEOUT (R171): the timer of the outstanding record runs out. -/
  | recordTimeout
  /-- UNIT_ANSWER_INVALID (R175): an answer word. -/
  | unitAnswerInvalid (word : Word)
  /-- UNIT_READY_ON (R163). -/
  | unitReadyOn
  /-- UNIT_READY_OFF (R163). -/
  | unitReadyOff
  /-- OUTLINE_FETCH_DONE (R168): the fetcher has read its outline's last word. -/
  | outlineFetchDone
deriving DecidableEq, Repr

end Sys2Proof
end

