-- ==== Sys2Proof/WellFormed.lean ====
section
/-! DEFINITION. Which commands are well formed: the operands agree with one another and with the row they stand for.
The machine gives an ill-formed command a meaning too (its words are taken one by one, log 5). -/

namespace Sys2Proof

/-- A contents list in the one canonical form: addresses inside the bank and rising, no blank word listed (log 2). -/
def canonicalContents (cells : List (Nat × Word)) : Bool :=
  decide (cells.Pairwise fun a b => a.1 < b.1) &&
    cells.all fun c => decide (c.1 < Config.bankWords) && decide (c.2 ≠ Config.blankWord)

/-- The block of a WRITE STORE with this position and count ends at its count word (R156). -/
def writeEndsAtCount (bank count : Word) : Bool :=
  decide (7 < bank.toNat) || decide (count.toNat = 0) || decide (64 < count.toNat)

/-- The first words that name a command are 0001h to 000Dh (11.3). -/
def namesCommand (w : Word) : Bool := decide (1 ≤ w.toNat) && decide (w.toNat ≤ 13)

/-- The unit's four coded answers are ACK and the three FAULT words (11.4). -/
def codedAnswer (w : Word) : Bool := w == 0x0000#16 || w == 0x0101#16 || w == 0x0102#16 || w == 0x0103#16

/-- A well-formed command. -/
def Instr.wellFormed : Instr → Bool
  | .powerOnReset => true
  | .installFont _ _ => true
  | .retireFont _ => true
  | .readStore _ _ _ => true
  | .writeStore bank _ count words =>
    if writeEndsAtCount bank count then words.isEmpty else decide (words.length = count.toNat)
  | .loadClassList count entries =>
    if 48 < count.toNat then entries.isEmpty else decide (entries.length = count.toNat)
  | .setLink _ _ _ _ => true
  | .killGalley _ => true
  | .resumeGalley _ => true
  | .setClass _ _ => true
  | .clearUnit => true
  | .readStatus _ => true
  | .acknowledgeAttention _ => true
  | .libraryReset => true
  | .badCommand first => !namesCommand first
  | .commandBlockWord _ => true
  | .responseRead => true
  | .readStoreComplete => true
  | .writeStoreComplete => true
  | .installCopyRead => true
  | .holdRequest => true
  | .holdRequestDrop => true
  | .holdRead _ _ => true
  | .holdWrite _ _ _ => true
  | .presenceChange _ _ contents => contents.all canonicalContents
  | .byteReceived _ _ _ _ => true
  | .lineReturnToMark _ => true
  | .breakSignal _ => true
  | .frontEndReadyOn _ => true
  | .frontEndReadyOff _ => true
  | .transmitByteSent _ => true
  | .setterTurn => true
  | .unitAck => true
  | .unitFault _ => true
  | .recordTimeout => true
  | .unitAnswerInvalid w => !codedAnswer w
  | .unitReadyOn => true
  | .unitReadyOff => true
  | .outlineFetchDone => true

end Sys2Proof
end

