-- ==== Sys2Proof/Decode.lean ====
section
/-! DEFINITION. The commands that a word of the opcode table's bits spells. No row of the TC-2's table gives bits, so
no word spells one. (The library port's own blocks of words are read in Machine/Operands.lean.) -/

namespace Sys2Proof

/-- The command that the bits w spell: none, since no row of spec/opcode_table.json gives bits. -/
def decodeTableWord (_nbits _w : Nat) : Option Instr := none

end Sys2Proof
end

