-- ==== Sys2Proof/Machine/State.lean ====
section
/-! DEFINITION. The state of the TC-2: every register, table, buffer, mode and line the manual names, as plain data,
and the state right after power-on reset. -/

namespace Sys2Proof.Machine

/-! ## Font Directory (chapter 1) -/

/-- The states of a font slot (1.1, R1). -/
inductive SlotState where
  | empty
  | loading
  | resident
  | retiring
deriving DecidableEq, Repr

/-- A code map entry: the glyphs of a code in its four forms, 0 for none (R2). -/
structure CodeMapEntry where
  code : Word
  isolated : Nat
  initialForm : Nat
  medial : Nat
  finalForm : Nat
deriving DecidableEq, Repr

/-- A kern list entry (R3). -/
structure KernEntry where
  left : Nat
  right : Nat
  value : Int
deriving DecidableEq, Repr

/-- A ligature list entry; a third component of 0 marks a ligature of two (R3; 11.5). -/
structure LigatureEntry where
  first : Nat
  second : Nat
  third : Nat
  result : Nat
deriving DecidableEq, Repr

/-- A mark table entry (R3). -/
structure MarkEntry where
  glyph : Nat
  raise : Int
deriving DecidableEq, Repr

/-- An outline directory entry (R4). -/
structure OutlineEntry where
  offset : Nat
  count : Nat
deriving DecidableEq, Repr

/-- A slot record with its tables (R1 to R4). -/
structure Slot where
  state : SlotState
  fontNumber : Nat
  refCount : Nat
  bank : Nat
  offset : Nat
  glyphCount : Nat
  imageLost : Bool
  prot : Bool
  fallback : Nat
  elongation : Nat
  stackStep : Nat
  widths : List Nat
  codeMap : List CodeMapEntry
  kerns : List KernEntry
  ligatures : List LigatureEntry
  marks : List MarkEntry
  outlines : List OutlineEntry
deriving DecidableEq, Repr

/-- The record of an EMPTY slot (R1, last column). -/
def emptySlotRecord : Slot :=
  { state := .empty, fontNumber := 0, refCount := 0, bank := 0, offset := 0, glyphCount := 0, imageLost := false,
    prot := false, fallback := 0, elongation := 0, stackStep := 0, widths := [], codeMap := [], kerns := [],
    ligatures := [], marks := [], outlines := [] }

/-- The install copy in progress: its slot, the header words read so far, and the bank's protection when the copy
began (R6). Its place in the tables is how far the slot's tables are filled. -/
structure CopyJob where
  slot : Fin 8
  header : List Word
  prot : Bool
deriving DecidableEq, Repr

/-! ## Class List (chapter 2) -/

/-- Direction classes (R25). -/
inductive DirClass where
  | left
  | right
  | digit
  | neutral
  | mark
deriving DecidableEq, Repr

/-- Joining types (R25). -/
inductive JoinType where
  | none
  | back
  | dual
  | causing
  | transparent
deriving DecidableEq, Repr

/-- Break classes (R25). -/
inductive BreakClass where
  | ordinary
  | space
deriving DecidableEq, Repr

/-- A class record (R25). -/
structure ClassRecord where
  script : Nat
  dir : DirClass
  join : JoinType
  brk : BreakClass
deriving DecidableEq, Repr

/-- A Class List entry (R24). -/
structure ClassEntry where
  matchValue : Word
  careMask : Word
  priority : Nat
  cls : ClassRecord
deriving DecidableEq, Repr

/-! ## Words, lines and galleys (chapters 3 to 7) -/

/-- A typographic context; font none is "no current font" (R36, R59). -/
structure Ctx where
  font : Option Nat
  pointSize : Nat
  setSize : Nat
  track : Int
  ligatures : Bool
deriving DecidableEq, Repr

/-- A character entry of the word buffer; code none is a damaged character (R59). -/
structure CharEntry where
  code : Option Word
  cls : ClassRecord
  ctx : Ctx
deriving DecidableEq, Repr

/-- The four forms of a joining character (4.3). -/
inductive Form where
  | isolated
  | initialForm
  | medial
  | finalForm
deriving DecidableEq, Repr

/-- A mark element of a shaped word (R62, R69). -/
structure MarkElement where
  slot : Option (Fin 8)
  glyph : Nat
  width : Nat
  cls : ClassRecord
  pointSize : Nat
  setSize : Nat
  stack : Nat
  raise : Int
  missing : Bool
  wantsFont : Bool
deriving DecidableEq, Repr

/-- A spacing element of a shaped word with its marks in stack order (R62). slot none is the damaged-character box.
wantsFont: it is that box for want of a font (R65, R66). baseless: a mark set as a spacing element (R70).
span: how many characters of the word it covers, its marks and dropped marks included (R72). -/
structure Spacing where
  slot : Option (Fin 8)
  glyph : Nat
  width : Nat
  form : Form
  joinsPrev : Bool
  joinsNext : Bool
  cls : ClassRecord
  pointSize : Nat
  setSize : Nat
  track : Int
  characters : Nat
  kern : Int
  missing : Bool
  wantsFont : Bool
  baseless : Bool
  pointAfter : Bool
  span : Nat
  marks : List MarkElement
deriving DecidableEq, Repr

/-- A shaped word: the characters it was shaped from, its elements, and whether a mark was dropped (R62, R70). -/
structure ShapedWord where
  chars : List CharEntry
  elements : List Spacing
  droppedMark : Bool
deriving DecidableEq, Repr

/-- An element of a line (R80). A glyph carries whether it begins a word or part, and its escapement of R78.
A mark stands inside its base. -/
inductive LineElement where
  | glyph (first : Bool) (escapement : Nat) (g : Spacing)
  | space
  | elongation (slot : Fin 8) (glyph escapement pointSize setSize : Nat)
deriving DecidableEq, Repr

/-- The line assembly and its running values (R79, R80). -/
structure LineAssembly where
  elements : List LineElement
  glyphSum : Nat
  spaces : Nat
  count : Nat
  setSize : Nat
  spaceMin : Nat
  spaceNormal : Nat
  spaceMax : Nat
  letterLimit : Nat
  joinMark : Bool
deriving DecidableEq, Repr

/-- The empty line assembly (R80). -/
def emptyLine : LineAssembly :=
  { elements := [], glyphSum := 0, spaces := 0, count := 0, setSize := 0, spaceMin := 0, spaceNormal := 0,
    spaceMax := 0, letterLimit := 0, joinMark := false }

/-- Quads (R39 field 5, R46). -/
inductive Quad where
  | justify
  | left
  | right
  | centre
deriving DecidableEq, Repr

/-- Line flags (R114). -/
structure LineFlags where
  loose : Bool
  forced : Bool
  overset : Bool
  hyphenated : Bool
  paragraphEnd : Bool
deriving DecidableEq, Repr

/-- No line flag. -/
def noLineFlags : LineFlags :=
  { loose := false, forced := false, overset := false, hyphenated := false, paragraphEnd := false }

/-- An entry of a line's placed-glyph list (R109). -/
structure PlacedGlyph where
  slot : Option (Fin 8)
  glyph : Nat
  x : Nat
  raise : Int
  pointSize : Nat
  setSize : Nat
  markOf : Bool
deriving DecidableEq, Repr

/-- A line set and closed, waiting for its line record (R87). -/
structure ClosedLine where
  advance : Nat
  quad : Quad
  flags : LineFlags
  glyphs : List PlacedGlyph
deriving DecidableEq, Repr

/-- A line record (R114). -/
structure LineRecord where
  galley : Fin 32
  number : Nat
  advance : Nat
  quad : Quad
  flags : LineFlags
  glyphs : List PlacedGlyph
deriving DecidableEq, Repr

/-- What closes a word: a space, the 64-character cut, or a code that closes the line (R60, R61). -/
inductive Break where
  | space
  | cut
  | endParagraph
  | quad (q : Quad)
  | galleyEnd
  | galleyStart
deriving DecidableEq, Repr

/-- Work of line filling that follows a line close (R83, R85, R89): a word to place with its break, a break to act
on, or a break whose line is closed. -/
inductive Rest where
  | word (w : ShapedWord) (brk : Break)
  | breakDue (brk : Break)
  | closed (brk : Break)
deriving DecidableEq, Repr

/-- A line held for closing and the work that follows it (R89, R114). -/
structure HeldLine where
  line : ClosedLine
  rest : Rest
deriving DecidableEq, Repr

/-- A galley header as clamped and adjusted, fields 4 to 17 (R39, R40). -/
structure Header where
  baseRight : Bool
  quad : Quad
  measure : Nat
  leading : Nat
  font : Nat
  pointSize : Nat
  setSize : Nat
  spaceMin : Nat
  spaceNormal : Nat
  spaceMax : Nat
  letterLimit : Nat
  elongationLimit : Nat
  ladderLimit : Nat
  hyphen : Word
deriving DecidableEq, Repr

/-- Galley states (7.2). -/
inductive GalleyState where
  | receiving
  | pressed
  | set
  | exposing
  | failed
  | done
deriving DecidableEq, Repr

/-- Galley outcomes (R110). -/
inductive GalleyOutcome where
  | none
  | exposed
  | killed
  | abandoned
deriving DecidableEq, Repr

/-- Galley and request flags, in the order of their bits (R113; 11.2). -/
inductive GalleyFlag where
  | truncated
  | damaged
  | charError
  | clamped
  | unknownCode
  | fontMissing
  | missingGlyph
  | contextOverflow
  | contextUnderflow
  | markDropped
  | longWord
  | looseLine
  | forcedLine
  | oversetLine
  | imageLost
deriving DecidableEq, Repr

/-- An allocated galley record (R110). -/
structure Galley where
  link : Fin 4
  number : Nat
  cls : Nat
  deadline : Nat
  state : GalleyState
  outcome : GalleyOutcome
  flags : Word
  header : Header
  useSet : List (Fin 8)
  lines : List LineRecord
  linesSet : Nat
  linesExposed : Nat
  missing : Nat
  mark : Bool
  ended : Bool
  killPending : Bool
  continuation : Bool
  selected : Bool
deriving DecidableEq, Repr

/-- The Galley Table and the Line Store (R110, R111, R116, R118, R129). -/
structure GalleyTable where
  records : Vector (Option Galley) 32
  order : List (Fin 32)
  eligible : List (Fin 32)
  freeLines : Nat
  stalled : Bool
deriving DecidableEq, Repr

/-! ## The setting context of a link (chapters 3 to 5) -/

/-- Parser states (R36). -/
inductive ParserState where
  | idle
  | header
  | inGalley
  | skip
  | inMeasure
  | waitRecord
  | waitLine
  | waitLimit
  | waitMeasure
deriving DecidableEq, Repr

/-- The states a measure request hands back to (R36). -/
inductive ReturnState where
  | idle
  | inGalley
  | skip
deriving DecidableEq, Repr

/-- The composition codes (R35; 11.1). -/
inductive Code where
  | galleyStart
  | galleyEnd
  | font
  | pointSize
  | setSize
  | track
  | ligaturesOn
  | ligaturesOff
  | openContext
  | closeContext
  | hyphenPoint
  | endParagraph
  | quadLeft
  | quadRight
  | quadCentre
  | extraLead
  | kill
  | resume
  | class
  | measure
  | measureEnd
  | undefined
deriving DecidableEq, Repr

/-- A composition code whose parameter words are still being taken (R36). A parameter none is a damaged word.
passOver: its words are passed over and it does not act (R55, R56). -/
structure PendingCode where
  code : Code
  params : List (Option Word)
  passOver : Bool
deriving DecidableEq, Repr

/-- A link's setting context (R36, R59, R80, R89). markerDue: log 12. -/
structure Setting where
  parser : ParserState
  ret : ReturnState
  resume : ReturnState
  header : List Nat
  heldFlags : Word
  pending : Option PendingCode
  galley : Option (Fin 32)
  ctx : Option Ctx
  stack : List Ctx
  overflow : Nat
  extraLead : Nat
  buffer : List CharEntry
  points : List Nat
  line : LineAssembly
  ladder : Nat
  held : Option HeldLine
  markerDue : Bool
deriving DecidableEq, Repr

/-- The setting context after reset (R36, R59, R80). -/
def idleSetting : Setting :=
  { parser := .idle, ret := .idle, resume := .idle, header := [], heldFlags := 0#16, pending := none, galley := none,
    ctx := none, stack := [], overflow := 0, extraLead := 0, buffer := [], points := [], line := emptyLine, ladder := 0,
    held := none, markerDue := false }

/-- A measure request (R54, R55). taken: how many of its four parameters have been taken. -/
structure MeasureRequest where
  taken : Nat
  font : Nat
  setSize : Nat
  track : Int
  space : Nat
  chars : List (Option Word)
  flags : Word
deriving DecidableEq, Repr

/-- A measure result (R90). -/
structure MeasureResult where
  width : Nat
  glyphs : Nat
  missing : Nat
  flags : Word
deriving DecidableEq, Repr

/-- The measure slot (R142). -/
inductive MeasureSlot where
  | empty
  | gathering (r : MeasureRequest)
  | waiting (r : MeasureResult)
  | sending (r : MeasureResult)
deriving DecidableEq, Repr

/-! ## Composition links (chapter 8) -/

/-- Link rates in baud (R132, R140). -/
inductive Rate where
  | b1200
  | b2400
  | b4800
  | b9600
  | b19200
deriving DecidableEq, Repr

/-- Receive states (R135). -/
inductive ReceiveState where
  | disabled
  | receiving
  | discard
deriving DecidableEq, Repr

/-- Pair state: LOW NEXT holds the high byte and whether it is sound (R132). -/
inductive PairState where
  | highNext
  | lowNext (high : Byte) (sound : Bool)
deriving DecidableEq, Repr

/-- An input ring entry; code none is a damaged word (R134). -/
structure RingEntry where
  code : Option Word
  marker : Bool
  drop : Nat
deriving DecidableEq, Repr

/-- A link's receiver (R132 to R141). -/
structure Receiver where
  rate : Rate
  recv : ReceiveState
  discardPending : Bool
  drop : Nat
  pair : PairState
  framing : Option Byte
  breakLatch : Bool
  ring : List RingEntry
  readyOut : Bool
  stray : Nat
deriving DecidableEq, Repr

/-- Transmitter states (R143). -/
inductive TransmitState where
  | idle
  | sending
  | held
deriving DecidableEq, Repr

/-- Which reply is being sent: a measure result, or the report of a record, final or not (R143, R128). -/
inductive ReplyTag where
  | result
  | report (galley : Fin 32) (final : Bool)
deriving DecidableEq, Repr

/-- A link's reply transmitter and the front end's ready line (R143 to R145). -/
structure Transmitter where
  state : TransmitState
  shift : Option Byte
  buffer : List Byte
  reply : Option ReplyTag
  feReady : Bool
deriving DecidableEq, Repr

/-- A composition link. -/
structure Link where
  rx : Receiver
  setting : Setting
  measure : MeasureSlot
  tx : Transmitter
deriving DecidableEq, Repr

/-- A link after power-on reset (R146); its front end's ready line is off (log 1). -/
def resetLink : Link :=
  { rx := { rate := .b9600, recv := .disabled, discardPending := false, drop := 0, pair := .highNext, framing := none,
            breakLatch := false, ring := [], readyOut := false, stray := 0 },
    setting := idleSetting, measure := .empty,
    tx := { state := .idle, shift := none, buffer := [], reply := none, feReady := false } }

/-! ## Font store, bus and library port (chapter 9) -/

/-- The contents of a board or cartridge: (word address, word) pairs in one canonical form (log 2). -/
abbrev Memory := List (Nat × Word)

/-- A bank position: the two sockets with what stands in them, and the protected attribute set when the cartridge
was sensed (R147, R148). -/
structure BankPosition where
  board : Option Memory
  cartridge : Option Memory
  prot : Bool
deriving DecidableEq, Repr

/-- The users of the font store bus (R151). -/
inductive BusUser where
  | copy
  | fetcher
  | store
  | hold
deriving DecidableEq, Repr

/-- The font store bus (R151, R152). last: which of copy and fetcher had the later unit. -/
structure Bus where
  holder : Option BusUser
  holdRequest : Bool
  last : Option BusUser
deriving DecidableEq, Repr

/-- A store command waiting for the bus or holding it (R155, R156). -/
inductive StoreOp where
  | read (position : Fin 8) (offset count : Nat)
  | write (position : Fin 8) (offset : Nat) (words : List Word)
deriving DecidableEq, Repr

/-- The four states of the library port with what each holds (R154). -/
inductive PortPhase where
  | ready
  | taking (words : List Word)
  | acting (op : StoreOp)
  | responding (response : List Word)
deriving DecidableEq, Repr

/-- The library port. offered: the words that the station has offered in ACTING and RESPONDING, in order; the first has
its strobe raised and unanswered until the port is READY again (R154, log 5). -/
structure Port where
  phase : PortPhase
  offered : List Word
deriving DecidableEq, Repr

/-- The reasons of INSTALL FAILED (R7, R20). -/
inductive InstallReason where
  | badHeader
  | outOfBank
  | bankChanged
deriving DecidableEq, Repr

/-- The kinds held with UNIT FAULT (R158). -/
inductive FaultKind where
  | filmOut
  | jam
  | lamp
  | notReady
deriving DecidableEq, Repr

/-- The eight attention causes with their details; a cause is set when its detail is there (R158). A set of positions
is a word of 8 bits. -/
structure Attention where
  installDone : Option (Fin 8)
  installFailed : Option InstallReason
  unitFault : Option FaultKind
  unitTimeout : Bool
  guardViolation : Option (Fin 8)
  cartridgeChange : Option (BitVec 8)
  imageLost : Option (BitVec 8)
  storeStalled : Bool
deriving DecidableEq, Repr

/-- No cause set (R160). -/
def noAttention : Attention :=
  { installDone := none, installFailed := none, unitFault := none, unitTimeout := false, guardViolation := none,
    cartridgeChange := none, imageLost := none, storeStalled := false }

/-! ## Imaging port (chapter 10) -/

/-- Unit states (10.2). -/
inductive UnitState where
  | offline
  | ready
  | sending
  | waitingLines
  | fault
deriving DecidableEq, Repr

/-- The records sent to the unit (R162). The words of a LOAD OUTLINE are none until the outline is delivered (R168). -/
inductive Record where
  | cacheClear
  | galleyOpen (number : Nat) (link : Fin 4) (continuation : Bool) (dots : Nat)
  | advance (dots : Nat)
  | loadOutline (entry : Fin 64) (words : Option (List Word))
  | exposeGlyph (entry : Fin 64) (x : Nat) (raise : Int) (pointSize setSize : Nat)
  | killMark
  | galleyClose
deriving DecidableEq, Repr

/-- The record outstanding; void after a library reset (R162, R173). -/
structure Outstanding where
  record : Record
  void : Bool
deriving DecidableEq, Repr

/-- An entry of the cache mirror (R166). -/
structure MirrorEntry where
  entry : Fin 64
  slot : Fin 8
  glyph : Nat
  blank : Bool
deriving DecidableEq, Repr

/-- An outline fetch in hand (R168). -/
structure Fetch where
  slot : Fin 8
  bank : Nat
  offset : Nat
  count : Nat
deriving DecidableEq, Repr

/-- The Exposure Controller (R162 to R168). mirror: least recent first. -/
structure Imaging where
  unit : UnitState
  ready : Bool
  out : Option Outstanding
  galley : Option (Fin 32)
  pos : Nat
  inProgress : Bool
  mirror : List MirrorEntry
  fetch : Option Fetch
  buffer : List Word
deriving DecidableEq, Repr

/-! ## The whole -/

/-- The state of the TC-2 and the queue of commands waiting for it. free picks the next free value (log 26);
stationRead is the word last delivered to the station under a hold (log 27). -/
structure State where
  slots : Vector Slot 8
  copy : Option CopyJob
  classes : List ClassEntry
  table : GalleyTable
  links : Vector Link 4
  rotation : Fin 4
  banks : Vector BankPosition 8
  bus : Bus
  stationRead : Option Word
  port : Port
  attention : Attention
  imaging : Imaging
  free : Nat
  pending : List Instr
deriving DecidableEq, Repr

/-- The Galley Table and Line Store after either reset (R130). -/
def emptyTable : GalleyTable :=
  { records := Vector.replicate 32 none, order := [], eligible := [], freeLines := Config.poolLines, stalled := false }

/-- The Exposure Controller with the unit OFFLINE (R163). -/
def offlineImaging : Imaging :=
  { unit := .offline, ready := false, out := none, galley := none, pos := 0, inProgress := false, mirror := [],
    fetch := none, buffer := [] }

/-- The machine right after power-on reset, with empty sockets and every outside line off (R23, R34, R36, R130, R146,
R160, R163; the sockets and lines DESIGN CHOICE, log 1). -/
def State.reset : State :=
  { slots := Vector.replicate 8 emptySlotRecord, copy := none, classes := [], table := emptyTable,
    links := Vector.replicate 4 resetLink, rotation := 0,
    banks := Vector.replicate 8 { board := none, cartridge := none, prot := false },
    bus := { holder := none, holdRequest := false, last := none }, stationRead := none,
    port := { phase := .ready, offered := [] }, attention := noAttention, imaging := offlineImaging, free := 0,
    pending := [] }

/-- The reasons a step can stop with a fault: none. The manual gives every command and event of the table an effect
or no effect, and it names no condition that stops the part (safe). -/
inductive Fault where
deriving DecidableEq, Repr

/-- The reasons a step can be refused. -/
inductive Refusal where
  /-- Raised by an arm of exec whose command has no meaning yet; every command has one, so no arm raises it (safe). -/
  | notModelled (mnemonic : String)
deriving DecidableEq, Repr

end Sys2Proof.Machine
end

