-- ==== Sys2Proof/Machine/Ops.lean ====
section
/-! DEFINITION. Shared operations over words, lists, the font store's memories, bank positions, slots and galley
records. -/

namespace Sys2Proof.Machine

/-! ## Words and counters -/

/-- The high byte of a word (11, opening). -/
def hiByte (w : Word) : Byte := w.extractLsb' 8 8

/-- The low byte of a word. -/
def loByte (w : Word) : Byte := w.extractLsb' 0 8

/-- A word from its high and low bytes (R132). -/
def joinBytes (high low : Byte) : Word := high ++ low

/-- A number in its word (11, opening). -/
def natWord (n : Nat) : Word := BitVec.ofNat 16 n

/-- A signed number in two's complement in its word (11, opening). -/
def intWord (z : Int) : Word := BitVec.ofInt 16 z

/-- Two numbers in the high and low byte of a word. -/
def packWord (high low : Nat) : Word := natWord (high * 256 + low)

/-- A value that may exceed 65535, as two words, high word first (11, opening). -/
def twoWords (n : Nat) : List Word := [natWord (n / 65536), natWord (n % 65536)]

/-- A flag or choice in its word: 0 or 1 (11.3). -/
def flagWord (b : Bool) : Word := if b then 1#16 else 0#16

/-- A set of slots as one word, bit n for slot n (11, opening). -/
def slotSetWord (set : List (Fin 8)) : Word := set.foldl (fun w i => w ||| (1#16 <<< i.val)) 0#16

/-- Addition that saturates at 65535 (R50, R87, R110). -/
def satAdd (a b : Nat) : Nat := min (a + b) Config.saturation

/-- One entry of a vector changed by a function. -/
def modifyAt {α : Type} {n : Nat} (v : Vector α n) (i : Fin n) (f : α → α) : Vector α n := v.set i (f v[i])

/-- The eight slots, which are also the numbers of the eight bank positions. -/
def slotIds : List (Fin 8) := [0, 1, 2, 3, 4, 5, 6, 7]

/-- The four links. -/
def linkIds : List (Fin 4) := [0, 1, 2, 3]

/-- The 32 galley records. -/
def recordIds : List (Fin 32) :=
  [0, 1, 2, 3, 4, 5, 6, 7, 8, 9, 10, 11, 12, 13, 14, 15, 16, 17, 18, 19, 20, 21, 22, 23, 24, 25, 26, 27, 28, 29, 30, 31]

/-- The 64 unit entries of the glyph cache (R166). -/
def entryIds : List (Fin 64) := (List.range 64).map fun n => Fin.ofNat 64 n

/-! ## Memories of boards and cartridges (R147, log 2) -/

/-- A memory in canonical form: addresses inside the bank and rising, no entry equal to the blank word. -/
abbrev Memory.wf (m : Memory) : Prop :=
  m.Pairwise (fun a b => a.1 < b.1) ∧ ∀ c ∈ m, c.1 < Config.bankWords ∧ c.2 ≠ Config.blankWord

/-- The word at an address. -/
def readMemory : Memory → Nat → Word
  | [], _ => Config.blankWord
  | (b, w) :: rest, a => if b = a then w else readMemory rest a

/-- A word stored at an address; storing the blank word removes the entry. -/
def writeMemory : Memory → Nat → Word → Memory
  | [], a, w => if w = Config.blankWord then [] else [(a, w)]
  | (b, v) :: rest, a, w =>
    if a < b then (if w = Config.blankWord then (b, v) :: rest else (a, w) :: (b, v) :: rest)
    else if a = b then (if w = Config.blankWord then rest else (a, w) :: rest)
    else (b, v) :: writeMemory rest a w

/-- Words stored in order from an offset (R156). -/
def writeWords : Memory → Nat → List Word → Memory
  | m, _, [] => m
  | m, a, w :: ws => writeWords (writeMemory m a w) (a + 1) ws

/-- A memory holding the listed contents, canonical whatever the list's form (log 2). -/
def memoryOf : List (Nat × Word) → Memory
  | [] => []
  | (a, w) :: rest => if a < Config.bankWords then writeMemory (memoryOf rest) a w else memoryOf rest

/-! ## Bank positions (R147 to R149) -/

/-- The kinds of a bank position (R147). -/
inductive BankKind where
  | cartridge
  | board
  | absent
deriving DecidableEq, Repr

/-- The kind that follows from the two sockets (R147). -/
def BankPosition.kind (p : BankPosition) : BankKind :=
  if p.cartridge.isSome then .cartridge else if p.board.isSome then .board else .absent

/-- A position is present when its kind is not ABSENT (R147). -/
def BankPosition.present (p : BankPosition) : Bool := p.cartridge.isSome || p.board.isSome

/-- What a read of an ABSENT or protected bank delivers (R147, R148). -/
def absentWord : Word := 0xFFFF#16

/-- A read decoded by the kind, as the install copy and the fetcher make it (R147, R148). -/
def trueRead (p : BankPosition) (a : Nat) : Word :=
  match p.cartridge, p.board with
  | some m, _ => readMemory m a
  | none, some m => readMemory m a
  | none, none => absentWord

/-- A read by the library station: a protected bank delivers FFFFh (R148). -/
def stationReadWord (p : BankPosition) (a : Nat) : Word := if p.prot then absentWord else trueRead p a

/-- The protected attribute as the decode finds it when the sockets are sensed (R148). -/
def sensedProtection (p : BankPosition) : Bool :=
  match p.cartridge with
  | some m => decide (readMemory m 0 = Config.protectMark)
  | none => false

/-- A position with its protected attribute sensed afresh (R148, R150, R160). -/
def sensePosition (p : BankPosition) : BankPosition := { p with prot := sensedProtection p }

/-- Words stored in the board RAM of a BOARD position; nothing is stored in any other kind (R147). -/
def storeWords (p : BankPosition) (a : Nat) (ws : List Word) : BankPosition :=
  match p.kind, p.board with
  | .board, some m => { p with board := some (writeWords m a ws) }
  | _, _ => p

/-- A position is guarded while a slot that is not EMPTY has its image in it (R149). -/
def guarded (slots : Vector Slot 8) (position : Fin 8) : Bool :=
  slotIds.any fun i => decide (slots[i].state ≠ .empty) && decide (slots[i].bank = position.val)

/-! ## Galley records -/

/-- An allocated record changed by a function; a free record stays free. -/
def GalleyTable.modify (t : GalleyTable) (g : Fin 32) (f : Galley → Galley) : GalleyTable :=
  match t.records[g] with
  | none => t
  | some r => { t with records := t.records.set g (some (f r)) }

/-- A galley set down at the tail of the eligible list, if its class is not 0 and it is not there yet (R118). -/
def GalleyTable.joinEligible (t : GalleyTable) (g : Fin 32) : GalleyTable :=
  match t.records[g] with
  | none => t
  | some r => if r.cls = 0 ∨ g ∈ t.eligible then t else { t with eligible := t.eligible ++ [g] }

/-- A galley off the eligible list (R118). -/
def GalleyTable.leaveEligible (t : GalleyTable) (g : Fin 32) : GalleyTable :=
  { t with eligible := t.eligible.filter (· ≠ g) }

/-- The line records of a galley returned to the pool all at once (R116). -/
def GalleyTable.returnLines (t : GalleyTable) (g : Fin 32) : GalleyTable :=
  match t.records[g] with
  | none => t
  | some r =>
    { t with records := t.records.set g (some { r with lines := [] }), freeLines := t.freeLines + r.lines.length }

/-- The lowest-numbered free record (R111). -/
def GalleyTable.lowestFree (t : GalleyTable) : Option (Fin 32) := recordIds.find? fun g => t.records[g].isNone

/-! ## Entry to EMPTY (R13) -/

/-- A slot record taken to EMPTY. -/
def clearSlot (slots : Vector Slot 8) (i : Fin 8) : Vector Slot 8 := slots.set i emptySlotRecord

/-- The mirror without the entries keyed by a slot (R13, R167). -/
def dropSlotEntries (mirror : List MirrorEntry) (i : Fin 8) : List MirrorEntry := mirror.filter (·.slot ≠ i)

/-- A slot's entry to EMPTY, with its effect on the cache mirror; the guard follows from the slots (R13, R149). -/
def State.emptySlot (s : State) (i : Fin 8) : State :=
  { s with slots := clearSlot s.slots i,
           imaging := { s.imaging with mirror := dropSlotEntries s.imaging.mirror i } }

end Sys2Proof.Machine
end

