-- ==== Sys2Proof/Machine/Flags.lean ====
section
/-! DEFINITION. Galley and request flags (R113; 11.2), line flags, and attention causes (R158). -/

namespace Sys2Proof.Machine

/-- The bit of a flag in the flag word (11.2). -/
def GalleyFlag.bit : GalleyFlag → Nat
  | .truncated => 0
  | .damaged => 1
  | .charError => 2
  | .clamped => 3
  | .unknownCode => 4
  | .fontMissing => 5
  | .missingGlyph => 6
  | .contextOverflow => 7
  | .contextUnderflow => 8
  | .markDropped => 9
  | .longWord => 10
  | .looseLine => 11
  | .forcedLine => 12
  | .oversetLine => 13
  | .imageLost => 14

/-- Whether a flag is in a flag word. -/
def hasFlag (w : Word) (f : GalleyFlag) : Bool := w.getLsbD f.bit

/-- A flag word with a flag added. -/
def addFlag (w : Word) (f : GalleyFlag) : Word := w ||| (1#16 <<< f.bit)

/-- A flag word with a flag added when a condition holds. -/
def addFlagIf (c : Bool) (w : Word) (f : GalleyFlag) : Word := if c then addFlag w f else w

/-- A flag raised on a galley record: a flag it did not carry sets the report-pending mark (R113). -/
def Galley.raiseFlag (r : Galley) (f : GalleyFlag) : Galley :=
  if hasFlag r.flags f then r else { r with flags := addFlag r.flags f, mark := true }

/-- A flag raised on a galley of the table (R113). -/
def GalleyTable.raiseFlag (t : GalleyTable) (g : Fin 32) (f : GalleyFlag) : GalleyTable :=
  t.modify g fun r => r.raiseFlag f

/-- A flag raised when a condition holds. -/
def GalleyTable.raiseIf (t : GalleyTable) (c : Bool) (g : Fin 32) (f : GalleyFlag) : GalleyTable :=
  if c then t.raiseFlag g f else t

/-! ## Attention causes -/

/-- A position added to a set of positions (R158). -/
def addPosition (set : Option (BitVec 8)) (position : Fin 8) : Option (BitVec 8) :=
  some (set.getD 0#8 ||| (1#8 <<< position.val))

/-- The set of causes that are set, by their bits (11.3). -/
def Attention.causes (a : Attention) : List Bool :=
  [a.installDone.isSome, a.installFailed.isSome, a.unitFault.isSome, a.unitTimeout, a.guardViolation.isSome,
   a.cartridgeChange.isSome, a.imageLost.isSome, a.storeStalled]

/-- The attention line is on while any cause is set (R158). -/
def Attention.line (a : Attention) : Bool := a.causes.any id

/-- A list of flags as a word, the first in bit 0. -/
def bitsWord : List Bool → Nat
  | [] => 0
  | b :: bs => b.toNat + 2 * bitsWord bs

/-- The reason codes of INSTALL FAILED (11.3). -/
def InstallReason.code : InstallReason → Nat
  | .badHeader => 13
  | .outOfBank => 14
  | .bankChanged => 5

/-- The fault kinds of UNIT FAULT (11.3). -/
def FaultKind.code : FaultKind → Nat
  | .filmOut => 1
  | .jam => 2
  | .lamp => 3
  | .notReady => 4

/-- The kind that a FAULT answer gives (R162). -/
def faultKindOf : FaultAnswer → FaultKind
  | .filmOut => .filmOut
  | .jam => .jam
  | .lamp => .lamp

/-- The causes of a set cleared with their details; a word's bits 8 to 15 are disregarded (R159, R175). -/
def Attention.acknowledge (a : Attention) (causes : Word) : Attention :=
  { installDone := if causes.getLsbD 0 then none else a.installDone
    installFailed := if causes.getLsbD 1 then none else a.installFailed
    unitFault := if causes.getLsbD 2 then none else a.unitFault
    unitTimeout := if causes.getLsbD 3 then false else a.unitTimeout
    guardViolation := if causes.getLsbD 4 then none else a.guardViolation
    cartridgeChange := if causes.getLsbD 5 then none else a.cartridgeChange
    imageLost := if causes.getLsbD 6 then none else a.imageLost
    storeStalled := if causes.getLsbD 7 then false else a.storeStalled }

end Sys2Proof.Machine
end

