-- ==== Sys2Proof/Machine/Operands.lean ====
section
/-! DEFINITION. The values words stand for: composition codes and their parameters, header fields and their ranges
(R35, R37, R39, R40, R43, R54; 11.1), and the blocks of the library port (R154; 11.3). -/

namespace Sys2Proof.Machine

/-! ## Stream words -/

/-- The values of the composition codes (11.1). -/
def codeTable : List (Word × Code) :=
  [(0xFF01#16, .galleyStart), (0xFF02#16, .galleyEnd), (0xFF10#16, .font), (0xFF11#16, .pointSize),
   (0xFF12#16, .setSize), (0xFF13#16, .track), (0xFF14#16, .ligaturesOn), (0xFF15#16, .ligaturesOff),
   (0xFF16#16, .openContext), (0xFF17#16, .closeContext), (0xFF20#16, .hyphenPoint), (0xFF21#16, .endParagraph),
   (0xFF22#16, .quadLeft), (0xFF23#16, .quadRight), (0xFF24#16, .quadCentre), (0xFF25#16, .extraLead),
   (0xFF30#16, .kill), (0xFF31#16, .resume), (0xFF32#16, .class), (0xFF40#16, .measure), (0xFF41#16, .measureEnd)]

/-- The word of GALLEY START (11.1). -/
def galleyStartWord : Word := 0xFF01#16

/-- The word of GALLEY END (11.1). -/
def galleyEndWord : Word := 0xFF02#16

/-- The composition code of a word in FF00h to FFFFh (R35). -/
def codeOf (w : Word) : Code := (codeTable.lookup w).getD .undefined

/-- The parameter words of a code (R35). GALLEY START's header words are taken in HEADER. -/
def paramCount : Code → Nat
  | .font => 1
  | .pointSize => 1
  | .setSize => 1
  | .track => 1
  | .extraLead => 1
  | .kill => 1
  | .resume => 1
  | .class => 2
  | .measure => 4
  | .galleyStart => 0
  | .galleyEnd => 0
  | .ligaturesOn => 0
  | .ligaturesOff => 0
  | .openContext => 0
  | .closeContext => 0
  | .hyphenPoint => 0
  | .endParagraph => 0
  | .quadLeft => 0
  | .quadRight => 0
  | .quadCentre => 0
  | .measureEnd => 0
  | .undefined => 0

/-- What a word is where it is not in a value position (R37). -/
inductive WordSort where
  | damaged
  | fill
  | code (c : Code)
  | text (w : Word)
deriving DecidableEq, Repr

/-- A word sorted by its code (R37; 00 section 6). -/
def sortWord : Option Word → WordSort
  | none => .damaged
  | some w => if w.toNat < 0x20 then .fill else if 0xFF00 ≤ w.toNat then .code (codeOf w) else .text w

/-! ## Ranges -/

/-- A value brought between two bounds, and whether it changed. -/
def clampRange (lo hi n : Nat) : Nat × Bool := if n < lo then (lo, true) else if hi < n then (hi, true) else (n, false)

/-- A value above a bound replaced, and whether it changed. -/
def clampAbove (hi other n : Nat) : Nat × Bool := if hi < n then (other, true) else (n, false)

/-- A header field brought into its range, and whether that raises CLAMPED (R39). -/
def clampHeader (position n : Nat) : Nat × Bool :=
  match position with
  | 1 => if n = 0 then (1, true) else (n, false)
  | 2 => clampAbove 3 3 n
  | 3 => clampAbove 255 255 n
  | 4 => clampAbove 1 0 n
  | 5 => clampAbove 3 0 n
  | 6 => clampRange 24 1440 n
  | 7 => clampRange 10 384 n
  | 8 => (n, false)
  | 9 => clampRange 10 192 n
  | 10 => clampRange 10 192 n
  | 11 => clampAbove 72 72 n
  | 12 => clampAbove 72 72 n
  | 13 => clampAbove 144 144 n
  | 14 => clampAbove 8 8 n
  | 15 => clampAbove 3 3 n
  | 16 => clampAbove 7 7 n
  | _ => if n = 0 then (0x2D, false) else if n < 0x20 ∨ 0xFF00 ≤ n then (0x2D, true) else (n, false)

/-- What a damaged header word becomes (R39, last column). -/
def damagedHeader (position : Nat) : Nat :=
  match position with
  | 1 => 1
  | 2 => 3
  | 3 => 255
  | 4 => 0
  | 5 => 0
  | 6 => 24
  | 7 => 10
  | 8 => 0
  | 9 => 10
  | 10 => 10
  | 11 => 0
  | 12 => 0
  | 13 => 0
  | 14 => 0
  | 15 => 0
  | 16 => 0
  | _ => 0x2D

/-- A header word taken: its value and the held flags with those it raises (R39). -/
def takeHeaderWord (position : Nat) (w : Option Word) (flags : Word) : Nat × Word :=
  match w with
  | none => (damagedHeader position, addFlag (addFlag flags .charError) .clamped)
  | some w =>
    let r := clampHeader position w.toNat
    (r.1, addFlagIf r.2 flags .clamped)

/-- A track in units, brought into −8 to +8, and whether it changed (R43). -/
def clampTrack (w : Word) : Int × Bool :=
  if 8 < w.toInt then (8, true) else if w.toInt < -8 then (-8, true) else (w.toInt, false)

/-- A header value by its position in the table of R39. -/
def headerValue (vals : List Nat) (position : Nat) : Nat := vals.getD (position - 1) 0

/-- The quad mode of header field 5 (R39). -/
def quadOf : Nat → Quad
  | 1 => .left
  | 2 => .right
  | 3 => .centre
  | _ => .justify

/-- Fields 4 to 17 of a complete header with the word spaces in order (R39, R40). -/
def headerOf (vals : List Nat) : Header :=
  { baseRight := decide (headerValue vals 4 = 1), quad := quadOf (headerValue vals 5), measure := headerValue vals 6,
    leading := headerValue vals 7, font := headerValue vals 8, pointSize := headerValue vals 9,
    setSize := headerValue vals 10, spaceMin := min (headerValue vals 11) (headerValue vals 12),
    spaceNormal := headerValue vals 12, spaceMax := max (headerValue vals 13) (headerValue vals 12),
    letterLimit := headerValue vals 14, elongationLimit := headerValue vals 15, ladderLimit := headerValue vals 16,
    hyphen := natWord (headerValue vals 17) }

/-- The adjustments of R40 change a word space, which raises CLAMPED. -/
def spacesAdjusted (vals : List Nat) : Bool :=
  decide (headerValue vals 12 < headerValue vals 11) || decide (headerValue vals 13 < headerValue vals 12)

/-! ## Library port blocks (11.3) -/

/-- A command block as the port reads it. A first word that names no command is a block by itself (R154). -/
inductive LibCommand where
  | installFont (bank : Word) (offset : BitVec 32)
  | retireFont (font : Word)
  | readStore (bank : Word) (offset : BitVec 32) (count : Word)
  | writeStore (bank : Word) (offset : BitVec 32) (count : Word) (words : List Word)
  | loadClassList (count : Word) (entries : List ClassWords)
  | setLink (link rate enable stray : Word)
  | killGalley (index : Word)
  | resumeGalley (index : Word)
  | setClass (index cls : Word)
  | clearUnit
  | readStatus (sec : Word)
  | acknowledgeAttention (causes : Word)
  | libraryReset
  | badCommand (first : Word)
deriving DecidableEq, Repr

/-- The high and the low word of a two-word offset. -/
def offsetWords (offset : BitVec 32) : List Word := [offset.extractLsb' 16 16, offset.extractLsb' 0 16]

/-- The four words of a class list entry (11.3). -/
def ClassWords.words (c : ClassWords) : List Word := [c.matchWord, c.careWord, c.rankWord, c.kindWord]

/-- The words of a command block in the order the station offers them (11.3). -/
def LibCommand.block : LibCommand → List Word
  | .installFont bank offset => [0x0001#16, bank] ++ offsetWords offset
  | .retireFont font => [0x0002#16, font]
  | .readStore bank offset count => [0x0003#16, bank] ++ offsetWords offset ++ [count]
  | .writeStore bank offset count words => [0x0004#16, bank] ++ offsetWords offset ++ [count] ++ words
  | .loadClassList count entries => [0x0005#16, count] ++ entries.flatMap ClassWords.words
  | .setLink link rate enable stray => [0x0006#16, link, rate, enable, stray]
  | .killGalley index => [0x0007#16, index]
  | .resumeGalley index => [0x0008#16, index]
  | .setClass index cls => [0x0009#16, index, cls]
  | .clearUnit => [0x000A#16]
  | .readStatus sec => [0x000B#16, sec]
  | .acknowledgeAttention causes => [0x000C#16, causes]
  | .libraryReset => [0x000D#16]
  | .badCommand first => [first]

/-- The operands of a command stand as the words of its block give them; only then is the whole block one command
(R154, R156, R32). -/
def LibCommand.complete : LibCommand → Bool
  | .writeStore bank _ count words =>
    if writeEndsAtCount bank count then words.isEmpty else decide (words.length = count.toNat)
  | .loadClassList count entries =>
    if 48 < count.toNat then entries.isEmpty else decide (entries.length = count.toNat)
  | .badCommand first => !namesCommand first
  | .installFont _ _ => true
  | .retireFont _ => true
  | .readStore _ _ _ => true
  | .setLink _ _ _ _ => true
  | .killGalley _ => true
  | .resumeGalley _ => true
  | .setClass _ _ => true
  | .clearUnit => true
  | .readStatus _ => true
  | .acknowledgeAttention _ => true
  | .libraryReset => true

/-- How many words the block beginning with these words has, as far as they tell; a count word out of its range ends
the block (R154, R156, R32). -/
def blockLength (words : List Word) : Nat :=
  match (words.getD 0 0#16).toNat with
  | 1 => 4
  | 2 => 2
  | 3 => 5
  | 4 =>
    if words.length < 5 then 6
    else if writeEndsAtCount (words.getD 1 0#16) (words.getD 4 0#16) then 5
    else 5 + (words.getD 4 0#16).toNat
  | 5 =>
    if words.length < 2 then 3
    else if 48 < (words.getD 1 0#16).toNat then 2
    else 2 + 4 * (words.getD 1 0#16).toNat
  | 6 => 5
  | 7 => 2
  | 8 => 2
  | 9 => 3
  | 10 => 1
  | 11 => 2
  | 12 => 2
  | 13 => 1
  | _ => 1

/-- The block is whole with these words. -/
def blockWhole (words : List Word) : Bool := decide (blockLength words ≤ words.length)

/-- Class list entries read from a block's words, four words to an entry. -/
def readEntries : List Word → List ClassWords
  | a :: b :: c :: d :: rest => { matchWord := a, careWord := b, rankWord := c, kindWord := d } :: readEntries rest
  | _ => []

/-- The command that a whole block spells (11.3). -/
def readBlock (words : List Word) : LibCommand :=
  let at_ (i : Nat) : Word := words.getD i 0#16
  let offset : BitVec 32 := at_ 2 ++ at_ 3
  match (at_ 0).toNat with
  | 1 => .installFont (at_ 1) offset
  | 2 => .retireFont (at_ 1)
  | 3 => .readStore (at_ 1) offset (at_ 4)
  | 4 => .writeStore (at_ 1) offset (at_ 4) (words.drop 5)
  | 5 => .loadClassList (at_ 1) (readEntries (words.drop 2))
  | 6 => .setLink (at_ 1) (at_ 2) (at_ 3) (at_ 4)
  | 7 => .killGalley (at_ 1)
  | 8 => .resumeGalley (at_ 1)
  | 9 => .setClass (at_ 1) (at_ 2)
  | 10 => .clearUnit
  | 11 => .readStatus (at_ 1)
  | 12 => .acknowledgeAttention (at_ 1)
  | 13 => .libraryReset
  | _ => .badCommand (at_ 0)

/-- The reasons of a REFUSED response (11.3). -/
inductive Reason where
  | badCommand
  | noSlot
  | notResident
  | badValue
  | bankChanged
  | absent
  | readOnly
  | guarded
  | noGalley
  | notFailed
  | notFaulted
  | badList
deriving DecidableEq, Repr

/-- The code of a reason (11.3). -/
def Reason.code : Reason → Nat
  | .badCommand => 1
  | .noSlot => 2
  | .notResident => 3
  | .badValue => 4
  | .bankChanged => 5
  | .absent => 6
  | .readOnly => 7
  | .guarded => 8
  | .noGalley => 9
  | .notFailed => 10
  | .notFaulted => 11
  | .badList => 12

/-- The response DONE (11.3). -/
def doneResponse : List Word := [packWord 1 0]

/-- The response STARTED (11.3). -/
def startedResponse : List Word := [packWord 2 0]

/-- The response BUSY (11.3). -/
def busyResponse : List Word := [packWord 3 0]

/-- The response REFUSED with a reason (11.3). -/
def refusedResponse (r : Reason) : List Word := [packWord 4 r.code]

/-- The rate of a rate word, the rate in baud divided by 100 (11.3). -/
def rateOf (w : Word) : Option Rate :=
  match w.toNat with
  | 12 => some .b1200
  | 24 => some .b2400
  | 48 => some .b4800
  | 96 => some .b9600
  | 192 => some .b19200
  | _ => none

/-- The coding of a rate (11.3). -/
def Rate.code : Rate → Nat
  | .b1200 => 12
  | .b2400 => 24
  | .b4800 => 48
  | .b9600 => 96
  | .b19200 => 192

end Sys2Proof.Machine
end

