-- ==== Sys2Proof/Machine/Classes.lean ====
section
/-! DEFINITION. Character classes (chapter 2): the winning entry, the built-in classes, and the reading of a class
list block. -/

namespace Sys2Proof.Machine

/-- The default class (R27). -/
def defaultClass : ClassRecord := { script := 0, dir := .left, join := .none, brk := .ordinary }

/-- The built-in class of the word space (R28). -/
def spaceClass : ClassRecord := { script := 0, dir := .neutral, join := .none, brk := .space }

/-- An entry matches when the code agrees with it in every bit of its care mask (R26). -/
def ClassEntry.covers (e : ClassEntry) (code : Word) : Bool := decide ((code ^^^ e.matchValue) &&& e.careMask = 0#16)

/-- The better of the entry that leads so far and a later one: a later entry wins only by a lower priority number
(R26). -/
def betterEntry (lead : Option ClassEntry) (e : ClassEntry) : Option ClassEntry :=
  match lead with
  | none => some e
  | some b => if e.priority < b.priority then some e else some b

/-- The winning entry of a code (R26). -/
def winningEntry (classes : List ClassEntry) (code : Word) : Option ClassEntry :=
  (classes.filter (·.covers code)).foldl betterEntry none

/-- The class of a character code (R26 to R28). A code whose winner gives SPACE takes N in direction resolution and
its other fields are disregarded, so it takes the word space's class. -/
def classify (classes : List ClassEntry) (code : Word) : ClassRecord :=
  if code = 0x0020#16 then spaceClass
  else
    match winningEntry classes code with
    | none => defaultClass
    | some e => if e.cls.brk = .space then spaceClass else e.cls

/-- A class record that gives a mark: direction class M or joining type T (R25). -/
def ClassRecord.isMark (c : ClassRecord) : Bool := decide (c.dir = .mark) || decide (c.join = .transparent)

/-- The code a hyphen is set with: 0020h is taken as 002Dh (R31, R74). -/
def hyphenCode (w : Word) : Word := if w = 0x0020#16 then 0x002D#16 else w

/-- The class a hyphen takes at its break. It is never a mark: a joining type T is examined as N, and a direction class
M or a mark's class counts as N in direction resolution (R31, R74, R102). Its break class is not consulted. -/
def hyphenClass (classes : List ClassEntry) (code : Word) : ClassRecord :=
  match winningEntry classes code with
  | none => defaultClass
  | some e =>
    { script := e.cls.script
      dir := if e.cls.isMark then .neutral else e.cls.dir
      join := if e.cls.join = .transparent then .none else e.cls.join
      brk := .ordinary }

/-! ## Class list blocks (R32; 11.3) -/

/-- The direction class of a code (11.3). -/
def dirOf : Nat → Option DirClass
  | 0 => some .left
  | 1 => some .right
  | 2 => some .digit
  | 3 => some .neutral
  | 4 => some .mark
  | _ => none

/-- The joining type of a code (11.3). -/
def joinOf : Nat → Option JoinType
  | 0 => some .none
  | 1 => some .back
  | 2 => some .dual
  | 3 => some .causing
  | 4 => some .transparent
  | _ => none

/-- The break class of a code (11.3). -/
def breakOf : Nat → Option BreakClass
  | 0 => some .ordinary
  | 1 => some .space
  | _ => none

/-- An entry read from its four words, none where a field fails the checks of R32. -/
def readEntry (c : ClassWords) : Option ClassEntry :=
  let priority := (hiByte c.rankWord).toNat
  let script := (loByte c.rankWord).toNat
  match dirOf (c.kindWord.toNat / 4096), joinOf (c.kindWord.toNat / 256 % 16), breakOf (c.kindWord.toNat % 256) with
  | some dir, some join, some brk =>
    if priority ≤ 3 ∧ script ≤ 15 then
      some { matchValue := c.matchWord, careMask := c.careWord, priority := priority,
             cls := { script := script, dir := dir, join := join, brk := brk } }
    else none
  | _, _, _ => none

/-- All entries of a list, none if one of them fails its checks (R32). -/
def readClassList : List ClassWords → Option (List ClassEntry)
  | [] => some []
  | c :: cs =>
    match readEntry c, readClassList cs with
    | some e, some es => some (e :: es)
    | _, _ => none

end Sys2Proof.Machine
end

