-- ==== Sys2Proof/Machine/Directory.lean ====
section
/-! DEFINITION. The Font Directory: resolution of font numbers, reference counts, withdrawal, the install copy and the
loss of an image (chapter 1). -/

namespace Sys2Proof.Machine

/-! ## Resolution (R14, R17) -/

/-- Numbers that name a font (R1). -/
def fontNumberOk (n : Nat) : Bool := decide (1 ≤ n) && decide (n ≤ 255)

/-- The RESIDENT slot of a font number, step 2 of R14. -/
def resolveResident (slots : Vector Slot 8) (n : Nat) : Option (Fin 8) :=
  if fontNumberOk n then
    slotIds.find? fun i => decide (slots[i].state = .resident) && decide (slots[i].fontNumber = n)
  else none

/-- A font number resolved for a galley with this font-use set (R14). -/
def resolveFor (slots : Vector Slot 8) (useSet : List (Fin 8)) (n : Nat) : Option (Fin 8) :=
  let held := useSet.find? fun i =>
    (decide (slots[i].state = .resident) || decide (slots[i].state = .retiring)) && decide (slots[i].fontNumber = n)
  match held with
  | some i => if fontNumberOk n then some i else none
  | none => resolveResident slots n

/-- The first code map entry of a code, or one whose glyphs are all 0 (R2). -/
def lookupCode (slot : Slot) (code : Word) : CodeMapEntry :=
  (slot.codeMap.find? fun e => decide (e.code = code)).getD
    { code := code, isolated := 0, initialForm := 0, medial := 0, finalForm := 0 }

/-- The glyph of a form (R2). -/
def CodeMapEntry.glyphOf (e : CodeMapEntry) : Form → Nat
  | .isolated => e.isolated
  | .initialForm => e.initialForm
  | .medial => e.medial
  | .finalForm => e.finalForm

/-- A slot's glyph for a code and form: the form's glyph if not 0 (true), else the isolated glyph if not 0 (false)
(R19, R64). -/
def findGlyph (slot : Slot) (code : Word) (form : Form) : Option (Nat × Bool) :=
  let e := lookupCode slot code
  if e.glyphOf form ≠ 0 then some (e.glyphOf form, true)
  else if e.isolated ≠ 0 then some (e.isolated, false)
  else none

/-- The fallback chain from the slot last examined, for so many hops (R19). -/
def fallbackChain (slots : Vector Slot 8) (resolve : Nat → Option (Fin 8)) (code : Word) (form : Form) :
    Nat → Fin 8 → Option (Fin 8 × Nat × Bool)
  | 0, _ => none
  | hops + 1, last =>
    if slots[last].fallback = 0 then none
    else
      match resolve slots[last].fallback with
      | none => none
      | some i =>
        match findGlyph slots[i] code form with
        | some (g, own) => some (i, g, own)
        | none => fallbackChain slots resolve code form hops i

/-- The kern of a pair of glyphs of one slot (R3). -/
def kernOf (slot : Slot) (left right : Nat) : Int :=
  match slot.kerns.find? fun e => decide (e.left = left) && decide (e.right = right) with
  | some e => e.value
  | none => 0

/-- The raise of a mark glyph (R3). -/
def raiseOf (slot : Slot) (glyph : Nat) : Int :=
  match slot.marks.find? fun e => decide (e.glyph = glyph) with
  | some e => e.raise
  | none => 0

/-- The width of a glyph in its slot's width table (R2). -/
def widthOf (slot : Slot) (glyph : Nat) : Nat := slot.widths.getD glyph 0

/-! ## Reference counts (R16, R18) -/

/-- One more galley depends on a slot (R16). -/
def countUp (slots : Vector Slot 8) (i : Fin 8) : Vector Slot 8 :=
  modifyAt slots i fun s => { s with refCount := s.refCount + 1 }

/-- One galley fewer depends on a slot; a RETIRING slot whose count reaches 0 becomes EMPTY (R12, R18). -/
def State.countDown (s : State) (i : Fin 8) : State :=
  let n := s.slots[i].refCount - 1
  if n = 0 ∧ s.slots[i].state = .retiring then s.emptySlot i
  else { s with slots := modifyAt s.slots i fun x => { x with refCount := n } }

/-- The slots of a font-use set given up at the freeing of a galley record (R18). -/
def State.countDownAll (s : State) : List (Fin 8) → State
  | [] => s
  | i :: rest => (s.countDown i).countDownAll rest

/-! ## Withdrawal (R11, R12, R13) -/

/-- A RESIDENT slot withdrawn: RETIRING above count 0, EMPTY at count 0 (R9, R11, R20). -/
def State.withdraw (s : State) (i : Fin 8) : State :=
  if s.slots[i].refCount = 0 then s.emptySlot i
  else { s with slots := modifyAt s.slots i fun x => { x with state := .retiring } }

/-! ## The install copy (R5 to R9; 11.5) -/

/-- The number of EMPTY's lowest slot (R5). -/
def lowestEmpty (slots : Vector Slot 8) : Option (Fin 8) := slotIds.find? fun i => decide (slots[i].state = .empty)

/-- Some slot is LOADING (R5). -/
def anyLoading (slots : Vector Slot 8) : Bool := slotIds.any fun i => decide (slots[i].state = .loading)

/-- A bank position by its number, if there is one. -/
def bankNumber (n : Nat) : Option (Fin 8) := if h : n < 8 then some ⟨n, h⟩ else none

/-- A failed copy: the LOADING slot to EMPTY, INSTALL FAILED with its reason (R8). -/
def State.failCopy (s : State) (i : Fin 8) (reason : InstallReason) : State :=
  let s := s.emptySlot i
  { s with copy := none, attention := { s.attention with installFailed := some reason } }

/-- A header word by its number in the layout of 11.5, 0 upward. -/
def headerWord (header : List Word) (n : Nat) : Nat := (header.getD n 0#16).toNat

/-- Check 2 of R7. -/
def headerSound (h : List Word) : Bool :=
  decide (1 ≤ headerWord h 0) && decide (headerWord h 0 ≤ 255) &&
  decide (1 ≤ headerWord h 1) && decide (headerWord h 1 ≤ 512) &&
  decide (headerWord h 2 ≤ 512) && decide (headerWord h 3 ≤ 256) && decide (headerWord h 4 ≤ 64) &&
  decide (headerWord h 5 ≤ 64) && decide (headerWord h 6 ≤ 255) && decide (headerWord h 7 < headerWord h 1) &&
  decide (headerWord h 8 ≤ 36)

/-- The length of an image (11.5). -/
def imageLength (h : List Word) : Nat :=
  9 + 4 * headerWord h 1 + 5 * headerWord h 2 + 3 * headerWord h 3 + 4 * headerWord h 4 + 2 * headerWord h 5

/-- Glyph numbers that name a glyph of the font and are not 0 (R3, R7). -/
def glyphNumberOk (g n : Nat) : Bool := decide (1 ≤ n) && decide (n < g)

/-- A table entry read by the copy: the slot with it added, or the reason it fails with (R7 checks 4 and 5). The
first table that is not yet full takes the entry. w i is the i-th word from the start of the image. -/
def addTableEntry (h : List Word) (slot : Slot) (w : Nat → Word) : Except InstallReason Slot :=
  let g := headerWord h 1
  let mapAt := 9 + g
  let kernAt := mapAt + 5 * headerWord h 2
  let ligAt := kernAt + 3 * headerWord h 3
  let markAt := ligAt + 4 * headerWord h 4
  let outAt := markAt + 2 * headerWord h 5
  if slot.widths.length < g then
    let n := (w (9 + slot.widths.length)).toNat
    if n ≤ 216 then .ok { slot with widths := slot.widths ++ [n] } else .error .badHeader
  else if slot.codeMap.length < headerWord h 2 then
    let a := mapAt + 5 * slot.codeMap.length
    let e : CodeMapEntry :=
      { code := w a, isolated := (w (a + 1)).toNat, initialForm := (w (a + 2)).toNat, medial := (w (a + 3)).toNat,
        finalForm := (w (a + 4)).toNat }
    if e.isolated < g ∧ e.initialForm < g ∧ e.medial < g ∧ e.finalForm < g then
      .ok { slot with codeMap := slot.codeMap ++ [e] }
    else .error .badHeader
  else if slot.kerns.length < headerWord h 3 then
    let a := kernAt + 3 * slot.kerns.length
    let e : KernEntry := { left := (w a).toNat, right := (w (a + 1)).toNat, value := (w (a + 2)).toInt }
    if glyphNumberOk g e.left ∧ glyphNumberOk g e.right ∧ -36 ≤ e.value ∧ e.value ≤ 36 then
      .ok { slot with kerns := slot.kerns ++ [e] }
    else .error .badHeader
  else if slot.ligatures.length < headerWord h 4 then
    let a := ligAt + 4 * slot.ligatures.length
    let e : LigatureEntry :=
      { first := (w a).toNat, second := (w (a + 1)).toNat, third := (w (a + 2)).toNat, result := (w (a + 3)).toNat }
    if glyphNumberOk g e.first ∧ glyphNumberOk g e.second ∧ e.third < g ∧ glyphNumberOk g e.result then
      .ok { slot with ligatures := slot.ligatures ++ [e] }
    else .error .badHeader
  else if slot.marks.length < headerWord h 5 then
    let a := markAt + 2 * slot.marks.length
    let e : MarkEntry := { glyph := (w a).toNat, raise := (w (a + 1)).toInt }
    if glyphNumberOk g e.glyph ∧ -72 ≤ e.raise ∧ e.raise ≤ 72 then
      .ok { slot with marks := slot.marks ++ [e] }
    else .error .badHeader
  else
    let a := outAt + 3 * slot.outlines.length
    let e : OutlineEntry :=
      { offset := (w a).toNat * 65536 + (w (a + 1)).toNat, count := (w (a + 2)).toNat }
    if 1024 < e.count then .error .badHeader
    else if Config.bankWords < e.offset + e.count then .error .outOfBank
    else .ok { slot with outlines := slot.outlines ++ [e] }

/-- The last outline directory entry has been read (R9). -/
def imageComplete (h : List Word) (slot : Slot) : Bool := decide (headerWord h 1 ≤ slot.outlines.length)

/-- The copy's completion: the slot RESIDENT with count 0, INSTALL DONE, and any other RESIDENT slot of its number
withdrawn, in one event (R9). -/
def State.completeCopy (s : State) (i : Fin 8) : State :=
  let n := s.slots[i].fontNumber
  let older := slotIds.find? fun j =>
    decide (j ≠ i) && decide (s.slots[j].state = .resident) && decide (s.slots[j].fontNumber = n)
  let s := { s with slots := modifyAt s.slots i fun x => { x with state := .resident, refCount := 0, imageLost := false }
                    copy := none
                    attention := { s.attention with installDone := some i } }
  match older with
  | none => s
  | some j => s.withdraw j

/-- The header has been read: checks 2 and 3 of R7, and the slot's record filled from it (R6). An offset of 262144 or
more fails at the third check whatever its header words (R175, log 9). -/
def State.takeHeader (s : State) (job : CopyJob) : State :=
  let i := job.slot
  let h := job.header
  let offset := s.slots[i].offset
  if Config.bankWords ≤ offset then s.failCopy i .outOfBank
  else if headerSound h = false then s.failCopy i .badHeader
  else if Config.bankWords < offset + imageLength h then s.failCopy i .outOfBank
  else
    { s with
      copy := some job
      slots := modifyAt s.slots i fun x =>
        { x with fontNumber := headerWord h 0, glyphCount := headerWord h 1, fallback := headerWord h 6,
                 elongation := headerWord h 7, stackStep := headerWord h 8, prot := job.prot } }

/-- One read of the install copy: a header field or a table entry (R6, R7). A word past the end of the bank is a free
value (log 9). -/
def State.copyRead (s : State) (job : CopyJob) : State :=
  let slot := s.slots[job.slot]
  match bankNumber slot.bank with
  | none => s.failCopy job.slot .outOfBank
  | some b =>
    let word (n : Nat) : Word :=
      if slot.offset + n < Config.bankWords then trueRead s.banks[b] (slot.offset + n)
      else Config.wordPastBank (s.free + n)
    if job.header.length < 9 then
      let job' : CopyJob := { job with header := job.header ++ [word job.header.length] }
      let s := { s with free := s.free + 9 }
      if job'.header.length < 9 then { s with copy := some job' } else s.takeHeader job'
    else
      match addTableEntry job.header slot word with
      | .error reason => s.failCopy job.slot reason
      | .ok slot' =>
        let s := { s with slots := s.slots.set job.slot slot' }
        if imageComplete job.header slot' then s.completeCopy job.slot else s

/-! ## Loss of an image (R20) -/

/-- What a presence change at a position does to one slot (R20). -/
def State.loseSlot (s : State) (position : Fin 8) (i : Fin 8) : State :=
  if s.slots[i].bank ≠ position.val then s
  else
    match s.slots[i].state with
    | .empty => s
    | .loading => s.failCopy i .bankChanged
    | .resident =>
      let s := { s with slots := modifyAt s.slots i fun x => { x with imageLost := true } }
      s.withdraw i
    | .retiring => { s with slots := modifyAt s.slots i fun x => { x with imageLost := true } }

/-- The presence change taken to each of the slots listed (R20). -/
def State.loseSlots (s : State) (position : Fin 8) : List (Fin 8) → State
  | [] => s
  | i :: rest => (s.loseSlot position i).loseSlots position rest

/-- A RESIDENT or RETIRING slot has its image in the position, whether it has lost it before or not (R20; that a slot
which has lost its image already counts as affected, log 31). -/
def imagesAt (slots : Vector Slot 8) (position : Fin 8) : Bool :=
  slotIds.any fun i =>
    decide (slots[i].bank = position.val) &&
      (decide (slots[i].state = .resident) || decide (slots[i].state = .retiring))

/-- A library reset's effect on a slot (R23). -/
def resetSlot (x : Slot) : Slot :=
  match x.state with
  | .resident => { x with refCount := 0 }
  | .empty => emptySlotRecord
  | .loading => emptySlotRecord
  | .retiring => emptySlotRecord

end Sys2Proof.Machine
end

