-- ==== Sys2Proof/Machine/Shaping.lean ====
section
/-! DEFINITION. The shaping of a word: forms, glyphs, ligatures, marks, hyphen points and kerns (chapter 4). -/

namespace Sys2Proof.Machine

/-! ## Forms (R63) -/

/-- A character can join forward when its joining type is D or C (R63). -/
def JoinType.forward : JoinType → Bool
  | .dual => true
  | .causing => true
  | .none => false
  | .back => false
  | .transparent => false

/-- A character can join back when its joining type is D, R or C (R63). -/
def JoinType.backward : JoinType → Bool
  | .dual => true
  | .back => true
  | .causing => true
  | .none => false
  | .transparent => false

/-- Two neighbours join (R63). -/
def joins (a b : ClassRecord) : Bool :=
  a.join.forward && b.join.backward &&
    (decide (a.script = b.script) || decide (a.join = .causing) || decide (b.join = .causing))

/-- The nearest neighbour of a list whose joining type is not T (R63). -/
def nearestJoiner (chars : List CharEntry) : Option ClassRecord :=
  (chars.find? fun c => decide (c.cls.join ≠ .transparent)).map (·.cls)

/-- The form of a character from whether it joins back and forward (R63). -/
def formOf (back forward : Bool) : Form :=
  match back, forward with
  | false, false => .isolated
  | true, false => .finalForm
  | false, true => .initialForm
  | true, true => .medial

/-- Whether each character joins back and forward, given the characters before it, nearest first (R63). -/
def joinings : List CharEntry → List CharEntry → List (Bool × Bool)
  | _, [] => []
  | before, c :: after =>
    let back := match nearestJoiner before with
      | some p => joins p c.cls
      | none => false
    let forward := match nearestJoiner after with
      | some n => joins c.cls n
      | none => false
    (back, forward) :: joinings (c :: before) after

/-! ## Glyphs (R64, R65) -/

/-- The width of the damaged-character box in units (R65). -/
def boxWidth : Nat := 36

/-- A character set as the damaged-character box (R65); wantsFont when it is for want of a font. -/
def boxElement (c : CharEntry) (wantsFont : Bool) : Spacing :=
  { slot := none, glyph := 0, width := boxWidth, form := .isolated, joinsPrev := false, joinsNext := false, cls := c.cls,
    pointSize := c.ctx.pointSize, setSize := c.ctx.setSize, track := c.ctx.track, characters := 1, kern := 0,
    missing := false, wantsFont := wantsFont, baseless := false, pointAfter := false, span := 1, marks := [] }

/-- A character set with a glyph of a slot (R64). own: the glyph is that of the chosen form, which keeps its joins. -/
def glyphElement (slots : Vector Slot 8) (c : CharEntry) (i : Fin 8) (glyph : Nat) (own : Bool) (back forward : Bool)
    (missing : Bool) : Spacing :=
  { slot := some i, glyph := glyph, width := widthOf slots[i] glyph,
    form := if own then formOf back forward else .isolated,
    joinsPrev := own && back, joinsNext := own && forward, cls := c.cls, pointSize := c.ctx.pointSize,
    setSize := c.ctx.setSize, track := c.ctx.track, characters := 1, kern := 0, missing := missing, wantsFont := false,
    baseless := false, pointAfter := false, span := 1, marks := [] }

/-- The hops of the fallback chain (R19). -/
def chainHops : Nat := 3

/-- One character with its glyph, still in the order of the characters. -/
structure GlyphItem where
  chr : CharEntry
  g : Spacing
deriving DecidableEq, Repr

/-- The glyph of a character (R64, R65). -/
def glyphFor (slots : Vector Slot 8) (resolve : Nat → Option (Fin 8)) (c : CharEntry) (back forward : Bool) : Spacing :=
  match c.code with
  | none => boxElement c false
  | some code =>
    match c.ctx.font.bind resolve with
    | none => boxElement c true
    | some i =>
      match findGlyph slots[i] code (formOf back forward) with
      | some (g, own) => glyphElement slots c i g own back forward false
      | none =>
        match fallbackChain slots resolve code (formOf back forward) chainHops i with
        | some (j, g, own) => glyphElement slots c j g own back forward false
        | none => glyphElement slots c i 0 false back forward true

/-- The glyphs of all characters of a word (R64). -/
def glyphItems (slots : Vector Slot 8) (resolve : Nat → Option (Fin 8)) :
    List CharEntry → List (Bool × Bool) → List GlyphItem
  | c :: cs, j :: js => { chr := c, g := glyphFor slots resolve c j.1 j.2 } :: glyphItems slots resolve cs js
  | _, _ => []

/-! ## Ligatures (R67, R68) -/

/-- Two consecutive characters stand in one run (R67). -/
def sameRun (a b : GlyphItem) : Bool :=
  !a.chr.cls.isMark && !b.chr.cls.isMark && a.g.slot.isSome && decide (a.g.slot = b.g.slot) &&
    a.chr.ctx.ligatures && b.chr.ctx.ligatures && decide (a.g.pointSize = b.g.pointSize) &&
    decide (a.g.setSize = b.g.setSize) && decide (a.g.track = b.g.track)

/-- The element of a ligature (R68): result glyph and width, form and joins-next of its last component, the rest of
its first. -/
def ligatureItem (slot : Slot) (result : Nat) (n : Nat) (a last : GlyphItem) : GlyphItem :=
  { a with g := { a.g with glyph := result, width := widthOf slot result, form := last.g.form,
                           joinsNext := last.g.joinsNext, characters := n, span := n } }

/-- The ligature that begins at an item, if one matches, and how many of the following items it takes up: entries of
three components first, then of two, in list order (R68). -/
def matchLigature (slots : Vector Slot 8) (a : GlyphItem) (rest : List GlyphItem) : Option (GlyphItem × Nat) :=
  match a.g.slot with
  | none => none
  | some i =>
    let three : Option (GlyphItem × Nat) :=
      match rest with
      | b :: c :: _ =>
        if sameRun a b && sameRun b c then
          (slots[i].ligatures.find? fun e =>
            decide (e.third ≠ 0) && decide (e.first = a.g.glyph) && decide (e.second = b.g.glyph) &&
              decide (e.third = c.g.glyph)).map fun e => (ligatureItem slots[i] e.result 3 a c, 2)
        else none
      | _ => none
    let two : Option (GlyphItem × Nat) :=
      match rest with
      | b :: _ =>
        if sameRun a b then
          (slots[i].ligatures.find? fun e =>
            decide (e.third = 0) && decide (e.first = a.g.glyph) && decide (e.second = b.g.glyph)).map
              fun e => (ligatureItem slots[i] e.result 2 a b, 1)
        else none
      | [] => none
    three.orElse fun _ => two

/-- Ligatures formed over a word, from its first item on; skip counts components still to pass over (R68). -/
def formLigatures (slots : Vector Slot 8) : Nat → List GlyphItem → List GlyphItem
  | _, [] => []
  | skip + 1, _ :: rest => formLigatures slots skip rest
  | 0, a :: rest =>
    match matchLigature slots a rest with
    | some (lig, n) => lig :: formLigatures slots n rest
    | none => a :: formLigatures slots 0 rest

/-! ## Marks (R69, R70) -/

/-- The raise of the k-th mark of a base, k counted from 0 (R69). -/
def stackedRaise (r : Int) (step k : Nat) : Int := if 0 ≤ r then r + k * step else r - k * step

/-- A character's mark element as the k-th mark of its base, k counted from 0 (R69). -/
def markElement (slots : Vector Slot 8) (g : Spacing) (k : Nat) : MarkElement :=
  { slot := g.slot, glyph := g.glyph, width := g.width, cls := g.cls, pointSize := g.pointSize, setSize := g.setSize,
    stack := k + 1,
    raise := match g.slot with
      | some i => stackedRaise (if g.missing then 0 else raiseOf slots[i] g.glyph) slots[i].stackStep k
      | none => 0
    missing := g.missing, wantsFont := g.wantsFont }

/-- The marks that one base carries (R70). -/
def marksPerBase : Nat := 3

/-- Marks attached to the spacing element before them; done holds the elements so far, last first, and whether a mark
was dropped (R69, R70). -/
def attachMarks (slots : Vector Slot 8) : List Spacing → Bool → List GlyphItem → List Spacing × Bool
  | done, dropped, [] => (done.reverse, dropped)
  | done, dropped, x :: rest =>
    if x.chr.cls.isMark then
      match done with
      | [] =>
        attachMarks slots [{ x.g with form := .isolated, joinsPrev := false, joinsNext := false, baseless := true }]
          dropped rest
      | base :: earlier =>
        if base.marks.length < marksPerBase then
          attachMarks slots
            ({ base with marks := base.marks ++ [markElement slots x.g base.marks.length], span := base.span + 1 } ::
              earlier) dropped rest
        else attachMarks slots ({ base with span := base.span + 1 } :: earlier) true rest
    else attachMarks slots (x.g :: done) dropped rest

/-! ## Hyphen points and kerns (R71, R72) -/

/-- The points placed against the elements: an element is marked when a point falls in its characters, and the last
element never is (R72). at_ is the number of characters before the element. -/
def placePoints (points : List Nat) : Nat → List Spacing → List Spacing
  | _, [] => []
  | _, [e] => [{ e with pointAfter := false }]
  | at_, e :: rest =>
    { e with pointAfter := points.any fun p => decide (at_ < p) && decide (p ≤ at_ + e.span) } ::
      placePoints points (at_ + e.span) rest

/-- The kern between two spacing elements (R71). -/
def kernBetween (slots : Vector Slot 8) (a b : Spacing) : Int :=
  match a.slot, b.slot with
  | some i, some j => if i = j then kernOf slots[i] a.glyph b.glyph else 0
  | _, _ => 0

/-- The kerns of a word's spacing elements (R71). -/
def kernElements (slots : Vector Slot 8) : List Spacing → List Spacing
  | [] => []
  | [e] => [{ e with kern := 0 }]
  | e :: f :: rest => { e with kern := kernBetween slots e f } :: kernElements slots (f :: rest)

/-! ## The word -/

/-- A word shaped from its characters and hyphen points, and the slots its glyph resolutions yielded, in order (R16,
R62). -/
def shapeWord (slots : Vector Slot 8) (resolve : Nat → Option (Fin 8)) (chars : List CharEntry) (points : List Nat) :
    ShapedWord × List (Fin 8) :=
  let items := glyphItems slots resolve chars (joinings [] chars)
  let marked := attachMarks slots [] false (formLigatures slots 0 items)
  ({ chars := chars, elements := kernElements slots (placePoints points 0 marked.1), droppedMark := marked.2 },
   items.filterMap fun x => x.g.slot)

/-- The number of spacing and mark elements of a word (R62). -/
def ShapedWord.elementCount (w : ShapedWord) : Nat := (w.elements.map fun e => 1 + e.marks.length).sum

/-- The number of elements with the missing mark (R66, R90). -/
def ShapedWord.missingCount (w : ShapedWord) : Nat :=
  (w.elements.map fun e => e.missing.toNat + (e.marks.filter (·.missing)).length).sum

/-- Some element is the damaged-character box for want of a font (R66). -/
def ShapedWord.wantsFont (w : ShapedWord) : Bool := w.elements.any fun e => e.wantsFont || e.marks.any (·.wantsFont)

/-- The places after a word's elements, as character positions, with whether a hyphen point stands there. -/
def placesFrom : Nat → List Spacing → List (Nat × Bool)
  | _, [] => []
  | at_, e :: rest => (at_ + e.span, e.pointAfter) :: placesFrom (at_ + e.span) rest

/-- The hyphen points of a shaped word, as the character positions where they stand (R72). -/
def ShapedWord.points (w : ShapedWord) : List Nat := ((placesFrom 0 w.elements).filter (·.2)).map (·.1)

/-- The places of a forced break: after each element but the last (R75, R85). -/
def ShapedWord.forcedPlaces (w : ShapedWord) : List Nat := ((placesFrom 0 w.elements).map (·.1)).dropLast

/-- The characters of a measure request divided into words at every character of break class SPACE (R76). -/
def splitWords : List CharEntry → List CharEntry → List (List CharEntry)
  | word, [] => [word.reverse]
  | word, c :: rest => if c.cls.brk = .space then word.reverse :: splitWords [] rest else splitWords (c :: word) rest

end Sys2Proof.Machine
end

