-- ==== Sys2Proof/Machine/Justify.lean ====
section
/-! DEFINITION. Escapement (R78, R79), justification, direction, exposure order and positions (chapter 6). -/

namespace Sys2Proof.Machine

/-! ## Escapement -/

/-- Units at a set size in fine units, rounded as R78 and R79 give. -/
def fineUnits (units setSize : Nat) : Nat := (units * setSize * 16 + 4) / 9

/-- The unit sum of a spacing element: 36 for the damaged-character box, otherwise width, track and kern, not below 0
(R78). -/
def unitSum (e : Spacing) : Nat :=
  match e.slot with
  | none => boxWidth
  | some _ => ((e.width : Int) + e.track + e.kern).toNat

/-- The escapement of a spacing element in fine units (R78). -/
def escapement (e : Spacing) : Nat := fineUnits (unitSum e) e.setSize

/-- The sum of a word's escapements (R82). -/
def ShapedWord.width (w : ShapedWord) : Nat := (w.elements.map escapement).sum

/-- The measure of a galley in fine units (R82). -/
def Header.fineMeasure (h : Header) : Nat := h.measure * 128

/-! ## Elongation (R95, R96) -/

/-- The elongation glyph to insert after an element, if the place is an elongation point (R95, R79). -/
def elongationAfter (slots : Vector Slot 8) : LineElement → Option LineElement
  | .space => none
  | .elongation _ _ _ _ _ => none
  | .glyph _ _ g =>
    match g.slot with
    | none => none
    | some i =>
      if (g.form = .initialForm ∨ g.form = .medial) ∧ slots[i].elongation ≠ 0 then
        some (.elongation i slots[i].elongation (fineUnits (widthOf slots[i] slots[i].elongation) g.setSize)
          g.pointSize g.setSize)
      else none

/-- The escapement an element of a line has before justification; a word space has none yet (R81). -/
def LineElement.base : LineElement → Nat
  | .glyph _ f _ => f
  | .space => 0
  | .elongation _ _ f _ _ => f

/-- One round of insertion over the elements, last first, each with how many it already holds: the elements with
their new numbers, the shortfall and the element count that remain (R96). -/
def elongationRound (slots : Vector Slot 8) (limit : Nat) :
    Nat → Nat → List (LineElement × Nat) → List (LineElement × Nat) × Nat × Nat
  | short, count, [] => ([], short, count)
  | short, count, (x, n) :: rest =>
    match elongationAfter slots x with
    | none =>
      let r := elongationRound slots limit short count rest
      ((x, n) :: r.1, r.2)
    | some e =>
      if e.base ≤ short ∧ n < limit ∧ count < Config.lineElements then
        let r := elongationRound slots limit (short - e.base) (count + 1) rest
        ((x, n + 1) :: r.1, r.2)
      else
        let r := elongationRound slots limit short count rest
        ((x, n) :: r.1, r.2)

/-- So many rounds. A place passed over in one round is passed over in every later one, and a place takes at most
limit glyphs, so limit rounds are as many as change anything (R96). -/
def elongationRounds (slots : Vector Slot 8) (limit : Nat) :
    Nat → List (LineElement × Nat) × Nat × Nat → List (LineElement × Nat) × Nat × Nat
  | 0, r => r
  | n + 1, r => elongationRounds slots limit n (elongationRound slots limit r.2.1 r.2.2 r.1)

/-- The elements, last first, with their elongation glyphs, back in logical order. -/
def insertElongation (slots : Vector Slot 8) : List (LineElement × Nat) → List LineElement
  | [] => []
  | (x, n) :: rest =>
    insertElongation slots rest ++ x ::
      (match elongationAfter slots x with
        | none => []
        | some e => List.replicate n e)

/-- A line's elements after elongation, and the shortfall that remains (R94 to R96). -/
def elongate (slots : Vector Slot 8) (h : Header) (line : LineAssembly) (short : Nat) : List LineElement × Nat :=
  if h.baseRight = true ∧ 0 < h.elongationLimit ∧ 0 < short then
    let start : List (LineElement × Nat) := line.elements.reverse.map fun x => (x, 0)
    let r := elongationRounds slots h.elongationLimit h.elongationLimit (start, short, line.count)
    (insertElongation slots r.1, r.2.1)
  else (line.elements, short)

/-! ## Spaces and letterspace (R92 to R101) -/

/-- A letterspace gap lies after a glyph before these elements (R98). -/
def gapAfter (g : Spacing) : List LineElement → Bool
  | .glyph false _ h :: _ => !(g.joinsNext && h.joinsPrev)
  | _ => false

/-- The gap count of a line (R98). -/
def gapCount : List LineElement → Nat
  | [] => 0
  | .glyph _ _ g :: rest => (gapAfter g rest).toNat + gapCount rest
  | _ :: rest => gapCount rest

/-- The share of the i-th of several takers: the first b take one more (R97, R99, R101). -/
def share (a b i : Nat) : Nat := if i < b then a + 1 else a

/-- Each element with its escapement, given what the i-th word space takes and what the i-th gap adds (R97 to R101).
The counters number the spaces and gaps met so far. -/
def setOut (spaceAt gapAt : Nat → Nat) : Nat → Nat → List LineElement → List (LineElement × Nat)
  | _, _, [] => []
  | si, gi, .space :: rest => (.space, spaceAt si) :: setOut spaceAt gapAt (si + 1) gi rest
  | si, gi, .elongation i g f p s :: rest => (.elongation i g f p s, f) :: setOut spaceAt gapAt si gi rest
  | si, gi, .glyph first f g :: rest =>
    if gapAfter g rest then (.glyph first f g, f + gapAt gi) :: setOut spaceAt gapAt si (gi + 1) rest
    else (.glyph first f g, f) :: setOut spaceAt gapAt si gi rest

/-- Where a line stands in its measure (R92). A line that fills its measure stands as one placed left. -/
inductive Placing where
  | left
  | right
  | centre
deriving DecidableEq, Repr

/-- Base start: left for base direction L, right for R (R92). -/
def baseStart (h : Header) : Placing := if h.baseRight then .right else .left

/-- A line set out: its elements with their escapements, its placing, and whether it is LOOSE. -/
structure SetLine where
  elements : List (LineElement × Nat)
  placing : Placing
  loose : Bool
deriving DecidableEq, Repr

/-- What the i-th space takes when the overrun is shrunk out of the spaces (R101). -/
def shrunkSpace (line : LineAssembly) (overrun i : Nat) : Nat :=
  line.spaceNormal - share (overrun / line.spaces) (overrun % line.spaces) i

/-- The natural width of a line (R94). -/
def naturalWidth (line : LineAssembly) : Nat := line.glyphSum + line.spaces * line.spaceNormal

/-- A line set with normal spaces (R93). -/
def setNormal (h : Header) (line : LineAssembly) (placing : Placing) : SetLine :=
  let n := naturalWidth line
  let spaceAt := if n ≤ h.fineMeasure then fun _ => line.spaceNormal else shrunkSpace line (n - h.fineMeasure)
  { elements := setOut spaceAt (fun _ => 0) 0 0 line.elements, placing := placing, loose := false }

/-- A line justified (R94 to R101). -/
def justifyLine (slots : Vector Slot 8) (h : Header) (line : LineAssembly) : SetLine :=
  let n := naturalWidth line
  if h.fineMeasure < n then
    { elements := setOut (shrunkSpace line (n - h.fineMeasure)) (fun _ => 0) 0 0 line.elements, placing := .left,
      loose := false }
  else
    let r := elongate slots h line (h.fineMeasure - n)
    let short := r.2
    let k := line.spaces
    let gaps := gapCount r.1
    let room := k * (line.spaceMax - line.spaceNormal)
    if 0 < k then
      if short ≤ room then
        { elements := setOut (fun i => line.spaceNormal + share (short / k) (short % k) i) (fun _ => 0) 0 0 r.1,
          placing := .left, loose := false }
      else
        let letter := short - room
        if 0 < gaps ∧ letter ≤ gaps * line.letterLimit then
          { elements := setOut (fun _ => line.spaceMax) (share (letter / gaps) (letter % gaps)) 0 0 r.1,
            placing := .left, loose := false }
        else
          let surplus := letter - gaps * line.letterLimit
          { elements := setOut (fun i => line.spaceMax + share (surplus / k) (surplus % k) i)
              (fun _ => line.letterLimit) 0 0 r.1,
            placing := .left, loose := true }
    else if short = 0 then { elements := setOut (fun _ => 0) (fun _ => 0) 0 0 r.1, placing := .left, loose := false }
    else if 0 < gaps ∧ short ≤ gaps * line.letterLimit then
      { elements := setOut (fun _ => 0) (share (short / gaps) (short % gaps)) 0 0 r.1, placing := .left, loose := false }
    else
      { elements := setOut (fun _ => 0) (fun _ => line.letterLimit) 0 0 r.1, placing := baseStart h, loose := true }

/-- The treatment and placing of a line by its quad and flags (R92). -/
def setByQuad (slots : Vector Slot 8) (h : Header) (line : LineAssembly) (quad : Quad) (flags : LineFlags) : SetLine :=
  if flags.overset then setNormal h line .left
  else
    match quad with
    | .justify =>
      if flags.forced || flags.paragraphEnd then setNormal h line (baseStart h) else justifyLine slots h line
    | .left => setNormal h line .left
    | .right => setNormal h line .right
    | .centre => setNormal h line .centre

/-! ## Direction and exposure order (R102 to R104) -/

/-- The direction of an element: L, R, D or N (R102). -/
def LineElement.direction : LineElement → DirClass
  | .space => .neutral
  | .elongation _ _ _ _ _ => .right
  | .glyph _ _ g => if g.baseless then .neutral else if g.cls.dir = .mark then .neutral else g.cls.dir

/-- The nearest direction that is not N, a digit counting as the base direction (R103). -/
def nearestDirection (base : DirClass) (dirs : List DirClass) : Option DirClass :=
  (dirs.find? fun d => decide (d ≠ .neutral)).map fun d => if d = .digit then base else d

/-- Whether each direction resolves to R, given those before it, nearest first (R103). -/
def resolveDirections (base : DirClass) : List DirClass → List DirClass → List Bool
  | _, [] => []
  | before, d :: after =>
    let resolved :=
      if d = .neutral then
        match nearestDirection base before, nearestDirection base after with
        | some a, some b => if a = b then a else base
        | _, _ => base
      else d
    decide (resolved = .right) :: resolveDirections base (d :: before) after

/-- Each maximal run of elements that satisfy a test, reversed in place; acc holds the run being met (R104). -/
def reverseRuns {α : Type} (test : α → Bool) : List α → List α → List α
  | acc, [] => acc
  | acc, x :: rest => if test x then reverseRuns test (x :: acc) rest else acc ++ x :: reverseRuns test [] rest

/-- The exposure order of elements marked as R or not (R104). -/
def exposureOrder {α : Type} (baseRight : Bool) (xs : List (α × Bool)) : List α :=
  if baseRight then (reverseRuns (fun x => !x.2) [] xs.reverse).map (·.1) else (reverseRuns (·.2) [] xs).map (·.1)

/-! ## Positions (R105 to R109) -/

/-- The quad offset (R105). -/
def quadOffset (placing : Placing) (measure width : Nat) : Nat :=
  match placing with
  | .left => 0
  | .right => measure - width
  | .centre => (measure - width) / 2

/-- An exposure x in dots, brought into the range 0 to measure × 8 (R106, R107). -/
def exposureX (h : Header) (x : Int) : Nat := min (x / 16).toNat (h.measure * 8)

/-- A raise in dots at a point size (R108). -/
def raiseDots (raise : Int) (pointSize : Nat) : Int :=
  if 0 ≤ raise then (raise * pointSize + 4) / 9 else -((-raise * pointSize + 4) / 9)

/-- The entry of a mark on a base at x whose escapement at R78 was b (R107, R108). -/
def placeMark (h : Header) (x b : Nat) (m : MarkElement) : PlacedGlyph :=
  { slot := m.slot, glyph := m.glyph, x := exposureX h (x + ((b : Int) - fineUnits m.width m.setSize) / 2),
    raise := raiseDots m.raise m.pointSize, pointSize := m.pointSize, setSize := m.setSize, markOf := true }

/-- The entries of the elements in exposure order, from an x in fine units on (R106, R109). -/
def placeElements (h : Header) : Nat → List (LineElement × Nat) → List PlacedGlyph
  | _, [] => []
  | x, (.space, f) :: rest => placeElements h (x + f) rest
  | x, (.elongation i g _ p s, f) :: rest =>
    { slot := some i, glyph := g, x := exposureX h x, raise := 0, pointSize := p, setSize := s, markOf := false } ::
      placeElements h (x + f) rest
  | x, (.glyph _ b g, f) :: rest =>
    { slot := g.slot, glyph := g.glyph, x := exposureX h x, raise := 0, pointSize := g.pointSize, setSize := g.setSize,
      markOf := false } :: (g.marks.map (placeMark h x b) ++ placeElements h (x + f) rest)

/-- The width of a set line (R105). -/
def SetLine.width (l : SetLine) : Nat := (l.elements.map (·.2)).sum

/-- The placed-glyph list of a line and whether it is LOOSE (R92 to R109). -/
def setLine (slots : Vector Slot 8) (h : Header) (line : LineAssembly) (quad : Quad) (flags : LineFlags) :
    List PlacedGlyph × Bool :=
  let l := setByQuad slots h line quad flags
  let base : DirClass := if h.baseRight then .right else .left
  let ordered := exposureOrder h.baseRight (l.elements.zip (resolveDirections base [] (l.elements.map (·.1.direction))))
  (placeElements h (quadOffset l.placing h.fineMeasure l.width) ordered, l.loose)

end Sys2Proof.Machine
end

