-- ==== Sys2Proof/Machine/Galleys.lean ====
section
/-! DEFINITION. The Galley Table and the Line Store: allocation, states, lines, kill, resume, class, selection, stall
and reports (chapter 7). -/

namespace Sys2Proof.Machine

/-! ## Allocation and ending -/

/-- The record that a completed header is given (R41, R110). vals are the 17 header values. -/
def newGalley (link : Fin 4) (vals : List Nat) (flags : Word) : Galley :=
  { link := link, number := headerValue vals 1, cls := headerValue vals 2, deadline := headerValue vals 3,
    state := .receiving, outcome := .none, flags := flags, header := headerOf vals, useSet := [], lines := [],
    linesSet := 0, linesExposed := 0, missing := 0, mark := true, ended := false, killPending := false,
    continuation := false, selected := false }

/-- A record allocated and set at the tail of the allocation order (R111). -/
def GalleyTable.allocate (t : GalleyTable) (g : Fin 32) (r : Galley) : GalleyTable :=
  { t with records := t.records.set g (some r), order := t.order ++ [g] }

/-- A galley ended by GALLEY END or by truncation (R48, R112). -/
def GalleyTable.endGalley (t : GalleyTable) (g : Fin 32) : GalleyTable :=
  match t.records[g] with
  | none => t
  | some r =>
    if r.state = .receiving ∨ r.state = .pressed then
      (t.modify g fun r => { r with ended := true, state := .set, mark := true }).joinEligible g
    else t.modify g fun r => { r with ended := true }

/-! ## Lines -/

/-- A galley takes no new line (R115). -/
def Galley.atLimit (r : Galley) : Bool :=
  (decide (r.state = .receiving) || decide (r.state = .pressed) || decide (r.state = .failed)) &&
    decide (Config.lineLimit ≤ r.lines.length)

/-- A galley with a closed line appended: its line number, its flags, and PRESSED at 96 lines (R87, R112, R114). -/
def Galley.appendLine (r : Galley) (g : Fin 32) (line : ClosedLine) : Galley :=
  let number := satAdd r.linesSet 1
  let lines := r.lines ++ [{ galley := g, number := number, advance := line.advance, quad := line.quad,
                             flags := line.flags, glyphs := line.glyphs : LineRecord }]
  let r := { r with linesSet := number, lines := lines
                    state := if r.state = .receiving ∧ Config.lineLimit ≤ lines.length then .pressed else r.state }
  let r := if line.flags.forced then r.raiseFlag .forcedLine else r
  let r := if line.flags.overset then r.raiseFlag .oversetLine else r
  if line.flags.loose then r.raiseFlag .looseLine else r

/-- A line record taken from the pool and appended to its galley (R114). A galley that becomes PRESSED joins the
eligible list (R112). -/
def GalleyTable.appendLine (t : GalleyTable) (g : Fin 32) (line : ClosedLine) : GalleyTable :=
  match t.records[g] with
  | none => t
  | some r =>
    let r' := r.appendLine g line
    let t := { t with records := t.records.set g (some r'), freeLines := t.freeLines - 1 }
    if r.state = .receiving ∧ r'.state = .pressed then t.joinEligible g else t

/-- The line record at the head of a galley's list freed by acknowledgement (R116, R165). -/
def GalleyTable.freeHeadLine (t : GalleyTable) (g : Fin 32) : GalleyTable :=
  match t.records[g] with
  | none => t
  | some r =>
    match r.lines with
    | [] => t
    | _ :: rest =>
      { t with records := t.records.set g (some { r with lines := rest, linesExposed := satAdd r.linesExposed 1 })
               freeLines := t.freeLines + 1 }

/-! ## Kill, resume, class (R123 to R125) -/

/-- A galley that leaves the store: its lines returned, DONE, its mark set (R121, R122, R123). -/
def GalleyTable.finish (t : GalleyTable) (g : Fin 32) (outcome : GalleyOutcome) : GalleyTable :=
  ((t.leaveEligible g).returnLines g).modify g fun r => { r with state := .done, outcome := outcome, mark := true }

/-- A kill by the state of its target (R123). -/
def GalleyTable.kill (t : GalleyTable) (g : Fin 32) (outcome : GalleyOutcome) : GalleyTable :=
  match t.records[g] with
  | none => t
  | some r =>
    match r.state with
    | .done => t
    | .exposing =>
      if r.killPending then t else t.modify g fun r => { r with killPending := true, outcome := outcome }
    | .receiving => t.finish g outcome
    | .pressed => t.finish g outcome
    | .set => t.finish g outcome
    | .failed => t.finish g outcome

/-- A RESUME of a galley; it acts on a FAILED one only (R124). -/
def GalleyTable.resume (t : GalleyTable) (g : Fin 32) : GalleyTable :=
  match t.records[g] with
  | none => t
  | some r =>
    if r.state = .failed then
      (t.modify g fun r =>
        { r with state := if r.ended then .set else .pressed, continuation := true, mark := r.mark || r.ended }).joinEligible g
    else t

/-- A class change (R125), with its move on the eligible list (R118). -/
def GalleyTable.setClass (t : GalleyTable) (g : Fin 32) (cls : Nat) : GalleyTable :=
  match t.records[g] with
  | none => t
  | some r =>
    if r.state = .done then t
    else
      let t := t.modify g fun r => { r with cls := cls }
      if r.state = .pressed ∨ r.state = .set then (if cls = 0 then t.leaveEligible g else t.joinEligible g) else t

/-- The record that a galley command of a link names: the earliest allocated of its number that is not DONE (R53). -/
def GalleyTable.target (t : GalleyTable) (link : Fin 4) (number : Nat) : Option (Fin 32) :=
  t.order.find? fun g =>
    match t.records[g] with
    | none => false
    | some r => decide (r.link = link) && decide (r.number = number) && decide (r.state ≠ .done)

/-! ## Film (R119 to R122) -/

/-- The better of the galley that leads so far and a later one of the list (R119). -/
def betterGalley (t : GalleyTable) (lead : Option (Fin 32)) (g : Fin 32) : Option (Fin 32) :=
  match t.records[g] with
  | none => lead
  | some r =>
    match lead.bind fun l => t.records[l] with
    | none => some g
    | some b =>
      if r.cls < b.cls ∨ (r.cls = b.cls ∧ r.cls = 2 ∧ r.deadline < b.deadline) then some g else lead

/-- The galley that a selection round chooses (R119). -/
def GalleyTable.choose (t : GalleyTable) : Option (Fin 32) := t.eligible.foldl (betterGalley t) none

/-- The chosen galley off the list and EXPOSING (R120). -/
def GalleyTable.select (t : GalleyTable) (g : Fin 32) : GalleyTable :=
  (t.leaveEligible g).modify g fun r => { r with state := .exposing, selected := true, mark := true }

/-- The acknowledgement of a galley's close (R121). -/
def GalleyTable.closed (t : GalleyTable) (g : Fin 32) : GalleyTable :=
  match t.records[g] with
  | none => t
  | some r => t.finish g (if r.killPending then r.outcome else .exposed)

/-- A fault reported while a galley is EXPOSING (R122). -/
def GalleyTable.faulted (t : GalleyTable) (g : Fin 32) : GalleyTable :=
  match t.records[g] with
  | none => t
  | some r =>
    if r.killPending then t.finish g r.outcome
    else if r.ended ∧ r.lines = [] then t.finish g .exposed
    else t.modify g fun r => { r with state := .failed, mark := true }

/-! ## Stall (R129) -/

/-- A galley that the stall condition counts as one that will not drain: class 0, FAILED or RECEIVING (R129; that class 0
counts in EXPOSING too, log 35). -/
def Galley.stuck (r : Galley) : Bool :=
  decide (r.cls = 0) || decide (r.state = .failed) || decide (r.state = .receiving)

/-- The stall condition (R129). -/
def GalleyTable.stallHolds (t : GalleyTable) : Bool :=
  decide (t.freeLines = 0) &&
    recordIds.all fun g =>
      match t.records[g] with
      | none => true
      | some r => r.lines.isEmpty || r.stuck

/-! ## Reports (R127; 11.2) -/

/-- The coding of a galley state (11.2). -/
def GalleyState.code : GalleyState → Nat
  | .receiving => 1
  | .pressed => 2
  | .set => 3
  | .exposing => 4
  | .failed => 5
  | .done => 6

/-- The coding of an outcome (11.2). -/
def GalleyOutcome.code : GalleyOutcome → Nat
  | .none => 0
  | .exposed => 1
  | .killed => 2
  | .abandoned => 3

/-- The seven words of a galley report (11.2). -/
def reportWords (g : Fin 32) (r : Galley) : List Word :=
  [packWord 1 g.val, natWord r.number, packWord r.state.code r.outcome.code, natWord r.linesSet,
   natWord r.linesExposed, r.flags, natWord r.missing]

/-- The width in dots of a measure result (R90). -/
def MeasureResult.dots (m : MeasureResult) : Nat := m.width / 16

/-- The seven words of a measure result (11.2). -/
def resultWords (m : MeasureResult) : List Word :=
  [packWord 2 0] ++ twoWords m.width ++ twoWords m.dots ++ [packWord m.glyphs m.missing, m.flags]

/-- The record of lowest index owned by a link whose report-pending mark is set (R127, R143). -/
def GalleyTable.marked (t : GalleyTable) (link : Fin 4) : Option (Fin 32) :=
  recordIds.find? fun g =>
    match t.records[g] with
    | none => false
    | some r => decide (r.link = link) && r.mark

end Sys2Proof.Machine
end

