-- ==== Sys2Proof/Machine/Links.lean ====
section
/-! DEFINITION. The link receiver with its ring, and the reply transmitter (chapter 8). -/

namespace Sys2Proof.Machine

/-! ## The ring (R134 to R138) -/

/-- An entry stored at the tail; the ready output goes off when the count reaches 224 (R134, R136). -/
def Receiver.store (rx : Receiver) (e : RingEntry) : Receiver :=
  let ring := rx.ring ++ [e]
  { rx with ring := ring, readyOut := if ring.length = Config.readyOffAt then false else rx.readyOut }

/-- The damage marker set on the entry at the tail (R137). -/
def markTail : List RingEntry → List RingEntry
  | [] => []
  | [e] => [{ e with marker := true }]
  | e :: rest => e :: markTail rest

/-- A word that a discard ends at: GALLEY START or GALLEY END (R135, R138). -/
def endsDiscard (w : Option Word) : Bool := decide (w = some galleyStartWord) || decide (w = some galleyEndWord)

/-- A completed word offered to the ring (R135, R137, R138). none is a damaged word (R133). -/
def Receiver.offer (rx : Receiver) (w : Option Word) : Receiver :=
  match rx.recv with
  | .disabled => rx
  | .receiving =>
    if rx.ring.length < Config.ringSize then rx.store { code := w, marker := false, drop := 0 }
    else { rx with ring := markTail rx.ring, recv := .discard, drop := 1 }
  | .discard =>
    if endsDiscard w = true ∧ rx.ring.length < Config.ringSize then
      { rx.store { code := w, marker := false, drop := rx.drop } with recv := .receiving, drop := 0 }
    else { rx with drop := satAdd rx.drop 1 }

/-- A byte taken into the pair, sound or not; the second of a pair completes a word (R132, R133). -/
def Receiver.takeByte (rx : Receiver) (b : Byte) (sound : Bool) : Receiver :=
  match rx.pair with
  | .highNext => { rx with pair := .lowNext b sound }
  | .lowNext high highSound =>
    { rx with pair := .highNext }.offer (if highSound && sound then some (joinBytes high b) else none)

/-- A byte frame received (R132). A frame cannot begin while the line has not returned to mark after a framing error or
a break, and a DISABLED link takes no byte (R135, R139, log 4, log 16). -/
def Receiver.byte (rx : Receiver) (b : Byte) (parityError framingError : Bool) : Receiver :=
  if rx.recv = .disabled ∨ rx.framing.isSome = true ∨ rx.breakLatch = true then rx
  else if framingError then { rx with framing := some b }
  else rx.takeByte b (!parityError)

/-- The line returns to mark: a byte held with a framing error is taken, and a break is over (R132, R139). -/
def Receiver.toMark (rx : Receiver) : Receiver :=
  let rx := { rx with breakLatch := false }
  match rx.framing with
  | none => rx
  | some b => if rx.recv = .disabled then rx else { rx with framing := none }.takeByte b false

/-- The receiver after a break (R139, R146). -/
def Receiver.afterBreak (rx : Receiver) : Receiver :=
  { rx with pair := .highNext, framing := none, ring := [], drop := 0, recv := .receiving, readyOut := true,
            breakLatch := true }

/-- A break is recognised: the link is not DISABLED and this is not the same break going on (R139). -/
def Receiver.breakTaken (rx : Receiver) : Bool := decide (rx.recv ≠ .disabled) && !rx.breakLatch

/-- The entry at the head taken by the Setter; the ready output goes on when the count falls to 96 (R134, R136). -/
def Receiver.take (rx : Receiver) : Receiver :=
  let ring := rx.ring.tail
  { rx with ring := ring
            readyOut := if rx.recv ≠ .disabled ∧ ring.length = Config.readyOnAt then true else rx.readyOut }

/-- Stray words counted (R141). -/
def Receiver.strays (rx : Receiver) (n : Nat) : Receiver := { rx with stray := satAdd rx.stray n }

/-- SET LINK's enable (R140, R136). -/
def Receiver.enable (rx : Receiver) : Receiver :=
  if rx.recv = .disabled then
    { rx with recv := if rx.discardPending then .discard else .receiving, pair := .highNext
              readyOut := decide (rx.ring.length ≤ Config.readyOnAt) }
  else rx

/-- SET LINK's disable (R140). -/
def Receiver.disable (rx : Receiver) : Receiver :=
  if rx.recv = .disabled then rx
  else
    { rx with recv := .disabled, pair := .highNext, framing := none, readyOut := false
              discardPending := decide (rx.recv = .discard) }

/-- The receiver after a library reset (R146). -/
def Receiver.afterLibraryReset (rx : Receiver) : Receiver :=
  { rx with recv := if rx.recv = .disabled then .disabled else .receiving, discardPending := false, pair := .highNext
            framing := none, ring := [], drop := 0, readyOut := decide (rx.recv ≠ .disabled), stray := 0 }

/-! ## The transmitter (R143 to R145) -/

/-- The bytes of a reply, high byte first (R132, R144). -/
def replyBytes (words : List Word) : List Byte := words.flatMap fun w => [hiByte w, loByte w]

/-- A reply taken: composed whole, its first byte in the shift register (R143, R144). -/
def Transmitter.start (tx : Transmitter) (tag : ReplyTag) (words : List Word) : Transmitter :=
  let bytes := replyBytes words
  { tx with state := .sending, reply := some tag, shift := bytes.head?, buffer := bytes.tail }

/-- The transmitter after the byte in its shift register has left it, when the reply is not complete (R144). -/
def Transmitter.nextByte (tx : Transmitter) : Transmitter :=
  if tx.feReady then { tx with shift := tx.buffer.head?, buffer := tx.buffer.tail }
  else { tx with shift := none, state := .held }

/-- The front end's ready line goes on: a HELD transmitter goes on from the next byte (R144). -/
def Transmitter.readyOn (tx : Transmitter) : Transmitter :=
  match tx.state with
  | .held => { tx with feReady := true, state := .sending, shift := tx.buffer.head?, buffer := tx.buffer.tail }
  | .idle => { tx with feReady := true }
  | .sending => { tx with feReady := true }

/-- The front end's ready line goes off: the transmitter becomes HELD once its shift register is empty (R144). -/
def Transmitter.readyOff (tx : Transmitter) : Transmitter :=
  { tx with feReady := false
            state := if tx.state = .sending ∧ tx.shift = none then .held else tx.state }

/-- A library reset ends a reply: the byte in the shift register is still sent, and the transmitter is IDLE after it
(R145, R146, log 25). -/
def Transmitter.cut (tx : Transmitter) : Transmitter :=
  { tx with buffer := [], reply := none, state := if tx.shift.isSome then .sending else .idle }

/-- The measure slot when the last word of a result has been sent (R142, R144). -/
def MeasureSlot.sent : MeasureSlot → MeasureSlot
  | .sending _ => .empty
  | .empty => .empty
  | .gathering r => .gathering r
  | .waiting r => .waiting r

/-- A reply taken by an idle transmitter whose front end is ready: a waiting measure result, else the marked record of
lowest index; the mark is cleared and the report composed (R127, R143). -/
def takeReply (t : GalleyTable) (i : Fin 4) (l : Link) : GalleyTable × Link :=
  if l.tx.state = .idle ∧ l.tx.feReady = true then
    match l.measure with
    | .waiting m => (t, { l with measure := .sending m, tx := l.tx.start .result (resultWords m) })
    | _ =>
      match t.marked i with
      | none => (t, l)
      | some g =>
        match t.records[g] with
        | none => (t, l)
        | some r =>
          (t.modify g fun r => { r with mark := false },
           { l with tx := l.tx.start (.report g (decide (r.state = .done))) (reportWords g r) })
  else (t, l)

end Sys2Proof.Machine
end

