-- ==== Sys2Proof/Machine/Filling.lean ====
section
/-! DEFINITION. The Setter's view of one link, and line filling: joining a word, hyphen and forced breaks, closing a
line, taking a line record, ending a galley (chapters 5 and 7). -/

namespace Sys2Proof.Machine

/-- What the Setter works on in one turn: the Class List, the Font Directory's slots, the Galley Table with the Line
Store, and one link (R117). -/
structure Bench where
  classes : List ClassEntry
  slots : Vector Slot 8
  table : GalleyTable
  id : Fin 4
  link : Link
deriving DecidableEq, Repr

/-- The setting context of the link changed by a function. -/
def Bench.withSetting (b : Bench) (f : Setting → Setting) : Bench :=
  { b with link := { b.link with setting := f b.link.setting } }

/-- The parser state of the link. -/
def Bench.parser (b : Bench) : ParserState := b.link.setting.parser

/-- The parser sent to a state. -/
def Bench.goto (b : Bench) (p : ParserState) : Bench := b.withSetting fun s => { s with parser := p }

/-- A flag raised on the current galley, if there is one (R113). -/
def Bench.raise (b : Bench) (f : GalleyFlag) : Bench :=
  match b.link.setting.galley with
  | none => b
  | some g => { b with table := b.table.raiseFlag g f }

/-- A flag raised on the current galley when a condition holds. -/
def Bench.raiseIf (b : Bench) (c : Bool) (f : GalleyFlag) : Bench := if c then b.raise f else b

/-- Stray words counted on the link (R50, R53, R138). -/
def Bench.strays (b : Bench) (n : Nat) : Bench := { b with link := { b.link with rx := b.link.rx.strays n } }

/-- The font-use set of a galley. -/
def Bench.useSet (b : Bench) (g : Fin 32) : List (Fin 8) :=
  match b.table.records[g] with
  | none => []
  | some r => r.useSet

/-- A slot that yielded a glyph joins the galley's font-use set and its count rises, unless it is there (R16). -/
def Bench.joinSlot (b : Bench) (g : Fin 32) (i : Fin 8) : Bench :=
  match b.table.records[g] with
  | none => b
  | some r =>
    if i ∈ r.useSet then b
    else { b with slots := countUp b.slots i
                  table := b.table.modify g fun r => { r with useSet := r.useSet ++ [i] } }

/-- All slots that a shaping yielded join (R16, R66). -/
def Bench.joinSlots (b : Bench) (g : Fin 32) : List (Fin 8) → Bench
  | [] => b
  | i :: rest => (b.joinSlot g i).joinSlots g rest

/-- A word or part shaped for a galley, with its effect on the font-use set (R64, R66, R73). -/
def Bench.shape (b : Bench) (g : Fin 32) (chars : List CharEntry) (points : List Nat) : Bench × ShapedWord :=
  let r := shapeWord b.slots (resolveFor b.slots (b.useSet g)) chars points
  (b.joinSlots g r.2, r.1)

/-! ## The fit test and the join (R79 to R82) -/

/-- The line set size of a word: that of its first character (R79). -/
def ShapedWord.lineSetSize (w : ShapedWord) : Nat :=
  match w.chars with
  | [] => 0
  | c :: _ => c.ctx.setSize

/-- A line assembly with its set size and four values fixed (R79). -/
def LineAssembly.fix (line : LineAssembly) (h : Header) (s : Nat) : LineAssembly :=
  { line with setSize := s, spaceMin := fineUnits h.spaceMin s, spaceNormal := fineUnits h.spaceNormal s,
              spaceMax := fineUnits h.spaceMax s, letterLimit := fineUnits h.letterLimit s }

/-- The word spaces appended before a word that joins the line: none or one (R81). -/
def LineAssembly.spaceBefore (line : LineAssembly) : Nat := if line.elements.isEmpty || line.joinMark then 0 else 1

/-- A word fits a line (R82). -/
def fitsLine (h : Header) (line : LineAssembly) (w : ShapedWord) : Bool :=
  decide (line.glyphSum + w.width + (line.spaces + line.spaceBefore) * line.spaceMin ≤ h.fineMeasure) &&
    decide (line.count + line.spaceBefore + w.elementCount ≤ Config.lineElements)

/-- A word's elements as line elements; the first begins a word (R81, R98). -/
def lineElements : Bool → List Spacing → List LineElement
  | _, [] => []
  | first, e :: rest => .glyph first (escapement e) e :: lineElements false rest

/-- The line with a word joined (R81). -/
def joinLine (h : Header) (line : LineAssembly) (w : ShapedWord) (brk : Break) : LineAssembly :=
  let line := if line.elements.isEmpty then line.fix h w.lineSetSize else line
  let sp := line.spaceBefore
  { line with elements := line.elements ++ List.replicate sp .space ++ lineElements true w.elements
              glyphSum := line.glyphSum + w.width
              spaces := line.spaces + sp
              count := line.count + sp + w.elementCount
              joinMark := decide (brk = .cut) }

/-- The galley effects of a word that joins the line (R66). -/
def Galley.takeWord (r : Galley) (w : ShapedWord) : Galley :=
  let r := { r with missing := satAdd r.missing w.missingCount }
  let r := if 0 < w.missingCount then r.raiseFlag .missingGlyph else r
  let r := if w.wantsFont then r.raiseFlag .fontMissing else r
  if w.droppedMark then r.raiseFlag .markDropped else r

/-- A word joins the line assembly (R66, R81). -/
def Bench.join (b : Bench) (g : Fin 32) (h : Header) (w : ShapedWord) (brk : Break) : Bench :=
  { b.withSetting fun s => { s with line := joinLine h s.line w brk } with
    table := b.table.modify g fun r => r.takeWord w }

/-! ## Closing a line (R86 to R88, R114, R115) -/

/-- The hyphen-ladder count after a line close (R86). -/
def nextLadder (ladder : Nat) (flags : LineFlags) : Nat := if flags.hyphenated then min (ladder + 1) 7 else 0

/-- A closed line appended to its galley, with the closing steps that follow (R86, R87). -/
def Bench.appendLine (b : Bench) (g : Fin 32) (line : ClosedLine) : Bench :=
  { b.withSetting fun s =>
      { s with parser := .inGalley, held := none, line := emptyLine, extraLead := 0,
               ladder := nextLadder s.ladder line.flags } with
    table := b.table.appendLine g line }

/-- The galley can take no line now because of its limit (R115). -/
def GalleyTable.limitHolds (t : GalleyTable) (g : Fin 32) : Bool :=
  match t.records[g] with
  | none => false
  | some r => r.atLimit

/-- A line record asked for: the line is appended (true), or the parser waits with it (false) (R114). -/
def Bench.takeRecord (b : Bench) (g : Fin 32) (h : HeldLine) : Bench × Bool :=
  if b.table.limitHolds g then (b.withSetting fun s => { s with parser := .waitLimit, held := some h }, false)
  else if b.table.freeLines = 0 then (b.withSetting fun s => { s with parser := .waitLine, held := some h }, false)
  else (b.appendLine g h.line, true)

/-- The advance of a line in dots (R88). -/
def lineAdvance (h : Header) (extraLead : Nat) : Nat := (h.leading + extraLead) * 8

/-- The line assembly closed (R87): set, then given a record or held for one. -/
def Bench.closeLine (b : Bench) (g : Fin 32) (h : Header) (quad : Quad) (flags : LineFlags) (rest : Rest) :
    Bench × Bool :=
  let s := b.link.setting
  let r := setLine b.slots h s.line quad flags
  b.takeRecord g
    { line := { advance := lineAdvance h s.extraLead, quad := quad, flags := { flags with loose := r.2 }, glyphs := r.1 }
      rest := rest }

/-! ## Breaking a word (R73 to R75, R84, R85) -/

/-- The hyphen as a character of the head part (R31, R74). -/
def Bench.hyphenEntry (b : Bench) (h : Header) : CharEntry :=
  let code := hyphenCode h.hyphen
  { code := some code, cls := hyphenClass b.classes code
    ctx := b.link.setting.ctx.getD { font := none, pointSize := 10, setSize := 10, track := 0, ligatures := true } }

/-- The points of the tail part, renumbered from its own first character (R73). -/
def tailPoints (points : List Nat) (place : Nat) : List Nat := (points.filter (place < ·)).map (· - place)

/-- The hyphen points tried in the order given: the first whose head part, hyphen appended, fits the line, with the
tail part (R73, R74, R84). Slots that trials yielded have joined (R66). -/
def Bench.tryPoints (b : Bench) (g : Fin 32) (h : Header) (w : ShapedWord) :
    List Nat → Bench × Option (ShapedWord × ShapedWord)
  | [] => (b, none)
  | p :: rest =>
    let head := b.shape g (w.chars.take p ++ [b.hyphenEntry h]) (w.points.filter (· < p))
    if fitsLine h b.link.setting.line head.2 then
      let tail := head.1.shape g (w.chars.drop p) (tailPoints w.points p)
      (tail.1, some (head.2, tail.2))
    else head.1.tryPoints g h w rest

/-- The ladder allows a hyphen (R84). -/
def ladderAllows (h : Header) (ladder : Nat) : Bool := decide (h.ladderLimit = 0) || decide (ladder < h.ladderLimit)

/-- The parts of a forced break at a place, no hyphen appended (R73, R75). -/
def Bench.forcedParts (b : Bench) (g : Fin 32) (w : ShapedWord) (p : Nat) : Bench × ShapedWord × ShapedWord :=
  let head := b.shape g (w.chars.take p) (w.points.filter (· < p))
  let tail := head.1.shape g (w.chars.drop p) (tailPoints w.points p)
  (tail.1, head.2, tail.2)

/-- The places of a forced break tried in the order given: the parts at the first whose head part is no wider than the
measure; at the last place tried the parts are taken whatever their width, and the line is OVERSET (true) (R85). -/
def Bench.tryPlaces (b : Bench) (g : Fin 32) (h : Header) (w : ShapedWord) :
    List Nat → Bench × Option (ShapedWord × ShapedWord × Bool)
  | [] => (b, none)
  | p :: rest =>
    let head := b.shape g (w.chars.take p) (w.points.filter (· < p))
    if head.2.width ≤ h.fineMeasure then
      let r := b.forcedParts g w p
      (r.1, some (r.2.1, r.2.2, false))
    else
      match rest with
      | [] =>
        let r := b.forcedParts g w p
        (r.1, some (r.2.1, r.2.2, true))
      | _ :: _ => head.1.tryPlaces g h w rest

/-! ## The end of a galley (R48, R49) -/

/-- The parser's per-galley state cleared when a galley ends or is given up (R48, R56, R58). -/
def Setting.giveUpGalley (s : Setting) : Setting :=
  { s with galley := none, ctx := none, stack := [], overflow := 0, extraLead := 0, buffer := [], points := [],
           line := emptyLine, held := none }

/-- A galley ended by its code; a GALLEY START goes on to the header of the next (R48, R49). -/
def Bench.endGalley (b : Bench) (g : Fin 32) (start : Bool) : Bench :=
  { b.withSetting fun s =>
      { s.giveUpGalley with parser := if start then .header else .idle, header := [], heldFlags := 0#16 } with
    table := b.table.endGalley g }

/-- A break whose line is closed, or needs none (R48, R49, R83). -/
def Bench.finishBreak (b : Bench) (g : Fin 32) : Break → Bench
  | .galleyEnd => b.endGalley g false
  | .galleyStart => b.endGalley g true
  | .space => b
  | .cut => b
  | .endParagraph => b
  | .quad _ => b

/-- The flags of a line closed at the end of a paragraph or galley (R87). -/
def paragraphFlags : LineFlags := { noLineFlags with paragraphEnd := true }

/-! ## Line filling (R82 to R85, R89) -/

/-- Line filling goes on with its work until it is done or the parser waits for a line record. fuel bounds the number
of steps; fillFuel gives enough for any work. -/
def Bench.fill (g : Fin 32) (h : Header) : Nat → Bench → Rest → Bench
  | 0, b, _ => b
  | fuel + 1, b, .word w brk =>
    if fitsLine h b.link.setting.line w then Bench.fill g h fuel (b.join g h w brk) (.breakDue brk)
    else
      let t := if ladderAllows h b.link.setting.ladder then b.tryPoints g h w w.points.reverse else (b, none)
      match t.2 with
      | some (head, tail) =>
        let c := (t.1.join g h head brk).closeLine g h h.quad { noLineFlags with hyphenated := true } (.word tail brk)
        if c.2 then Bench.fill g h fuel c.1 (.word tail brk) else c.1
      | none =>
        let b := t.1
        if b.link.setting.line.elements.isEmpty then
          let f := b.tryPlaces g h w w.forcedPlaces.reverse
          match f.2 with
          | some (head, tail, wide) =>
            let c := (f.1.join g h head brk).closeLine g h h.quad { noLineFlags with forced := true, overset := wide }
              (.word tail brk)
            if c.2 then Bench.fill g h fuel c.1 (.word tail brk) else c.1
          | none =>
            let c := (f.1.join g h w brk).closeLine g h h.quad { noLineFlags with forced := true, overset := true }
              (.breakDue brk)
            if c.2 then Bench.fill g h fuel c.1 (.breakDue brk) else c.1
        else
          let c := b.closeLine g h h.quad noLineFlags (.word w brk)
          if c.2 then Bench.fill g h fuel c.1 (.word w brk) else c.1
  | fuel + 1, b, .breakDue brk =>
    match brk with
    | .space => b
    | .cut => b
    | .endParagraph =>
      let c := b.closeLine g h h.quad paragraphFlags (.closed brk)
      if c.2 then Bench.fill g h fuel c.1 (.closed brk) else c.1
    | .quad q =>
      let c := b.closeLine g h q noLineFlags (.closed brk)
      if c.2 then Bench.fill g h fuel c.1 (.closed brk) else c.1
    | .galleyEnd =>
      if b.link.setting.line.elements.isEmpty then b.finishBreak g brk
      else
        let c := b.closeLine g h h.quad paragraphFlags (.closed brk)
        if c.2 then Bench.fill g h fuel c.1 (.closed brk) else c.1
    | .galleyStart =>
      if b.link.setting.line.elements.isEmpty then b.finishBreak g brk
      else
        let c := b.closeLine g h h.quad paragraphFlags (.closed brk)
        if c.2 then Bench.fill g h fuel c.1 (.closed brk) else c.1
  | _ + 1, b, .closed brk => b.finishBreak g brk

/-- Steps enough for any work of line filling: every line but the first takes at least one character of the word, and a
character takes at most two steps. -/
def fillFuel : Rest → Nat
  | .word w _ => 2 * w.chars.length + 8
  | .breakDue _ => 8
  | .closed _ => 8

/-- Line filling for the current galley (R82 to R89). -/
def Bench.fillCurrent (b : Bench) (rest : Rest) : Bench :=
  match b.link.setting.galley with
  | none => b
  | some g =>
    match b.table.records[g] with
    | none => b
    | some r => Bench.fill g r.header (fillFuel rest) b rest

/-- A word closed by a break: shaped and handed to line filling, or the break alone if the buffer is empty (R60). -/
def Bench.closeWord (b : Bench) (brk : Break) : Bench :=
  let s := b.link.setting
  let b' := b.withSetting fun s => { s with buffer := [], points := [] }
  match s.buffer, s.galley with
  | [], _ => b'.fillCurrent (.breakDue brk)
  | _, none => b'
  | c :: cs, some g =>
    let r := b'.shape g (c :: cs) (s.points.filter (· ≠ (c :: cs).length))
    r.1.fillCurrent (.word r.2 brk)

/-- A wait for a line record or for the limit whose condition has ended: the close is tried again (R114, R115, R117). -/
def Bench.releaseLine (b : Bench) : Bench :=
  match b.link.setting.held, b.link.setting.galley with
  | some h, some g =>
    let c := b.takeRecord g h
    if c.2 then c.1.fillCurrent h.rest else c.1
  | _, _ => b

end Sys2Proof.Machine
end

