-- ==== Sys2Proof/Machine/Setter.lean ====
section
/-! DEFINITION. The Setter's parser: headers, composition codes, galley commands, measure requests, skipping, damage
markers and the turns of the rotation (chapters 3 and 7). -/

namespace Sys2Proof.Machine

/-! ## Headers (R38 to R41) -/

/-- The typographic context that a header gives (R41). -/
def headerContext (slots : Vector Slot 8) (vals : List Nat) : Ctx :=
  { font := if (resolveResident slots (headerValue vals 8)).isSome then some (headerValue vals 8) else none
    pointSize := headerValue vals 9, setSize := headerValue vals 10, track := 0, ligatures := true }

/-- A completed header given a record (R41, R111). The initial font is resolved with an empty font-use set. -/
def Bench.allocate (b : Bench) (g : Fin 32) : Bench :=
  let vals := b.link.setting.header
  let ctx := headerContext b.slots vals
  let b :=
    { b.withSetting fun s =>
        { s with parser := .inGalley, galley := some g, header := [], heldFlags := 0#16, ctx := some ctx, stack := [],
                 overflow := 0, extraLead := 0, buffer := [], points := [], line := emptyLine, ladder := 0,
                 held := none } with
      table := b.table.allocate g (newGalley b.id vals b.link.setting.heldFlags) }
  b.raiseIf ctx.font.isNone .fontMissing

/-- A complete header: the adjustments of R40, then allocation or WAIT RECORD (R41). -/
def Bench.completeHeader (b : Bench) : Bench :=
  let b := b.withSetting fun s => { s with heldFlags := addFlagIf (spacesAdjusted s.header) s.heldFlags .clamped }
  match b.table.lowestFree with
  | some g => b.allocate g
  | none => b.goto .waitRecord

/-- The words of a header (R38). -/
def headerWords : Nat := 17

/-- A word taken in HEADER (R38, R39). -/
def Bench.takeHeader (b : Bench) (w : Option Word) : Bench :=
  let s := b.link.setting
  let r := takeHeaderWord (s.header.length + 1) w s.heldFlags
  let b := b.withSetting fun s => { s with header := s.header ++ [r.1], heldFlags := r.2 }
  if headerWords ≤ s.header.length + 1 then b.completeHeader else b

/-- The header fields not yet taken, at their damaged values (R57). -/
def missingFields (taken : Nat) : List Nat :=
  (List.range (headerWords - taken)).map fun i => damagedHeader (taken + 1 + i)

/-- A header cut off by a damage marker and completed (R57). -/
def Bench.damageHeader (b : Bench) : Bench :=
  (b.withSetting fun s =>
    let cut := decide (s.header.length < headerWords)
    { s with header := s.header ++ missingFields s.header.length
             heldFlags := addFlagIf cut (addFlagIf cut (addFlag s.heldFlags .damaged) .charError) .clamped }).completeHeader

/-- GALLEY START taken as the opening of a galley (R38). -/
def Bench.openHeader (b : Bench) : Bench :=
  b.withSetting fun s => { s with parser := .header, header := [], heldFlags := 0#16, pending := none }

/-! ## Measure requests (R54, R55, R76, R90, R91) -/

/-- A new request: no parameter taken, no character, no flag (R54). Its values are those a damaged parameter takes. -/
def newRequest : MeasureRequest :=
  { taken := 0, font := 0, setSize := 10, track := 0, space := 0, chars := [], flags := 0#16 }

/-- A parameter word of a request (R54). -/
def MeasureRequest.takeParam (r : MeasureRequest) (w : Option Word) : MeasureRequest :=
  match w with
  | none => { r with taken := r.taken + 1, flags := addFlag (addFlag r.flags .charError) .clamped }
  | some w =>
    match r.taken with
    | 0 => { r with taken := 1, font := w.toNat }
    | 1 =>
      let c := clampRange 10 192 w.toNat
      { r with taken := 2, setSize := c.1, flags := addFlagIf c.2 r.flags .clamped }
    | 2 =>
      let c := clampTrack w
      { r with taken := 3, track := c.1, flags := addFlagIf c.2 r.flags .clamped }
    | n + 3 =>
      let c := clampAbove 72 72 w.toNat
      { r with taken := n + 4, space := c.1, flags := addFlagIf c.2 r.flags .clamped }

/-- A character of a request (R55); none is a damaged one. One that finds 64 held is dropped with TRUNCATED alone (log 32). -/
def MeasureRequest.takeChar (r : MeasureRequest) (w : Option Word) : MeasureRequest :=
  if r.chars.length < Config.wordChars then
    { r with chars := r.chars ++ [w], flags := addFlagIf w.isNone r.flags .charError }
  else { r with flags := addFlag r.flags .truncated }

/-- A request's characters, classified, each in the request's one context (R30, R76). -/
def MeasureRequest.entries (r : MeasureRequest) (classes : List ClassEntry) : List CharEntry :=
  r.chars.map fun w =>
    { code := w
      cls := match w with
        | none => defaultClass
        | some c => classify classes c
      ctx := { font := some r.font, pointSize := r.setSize, setSize := r.setSize, track := r.track, ligatures := true } }

/-- A closed request's result (R90, R91). -/
def MeasureRequest.result (r : MeasureRequest) (classes : List ClassEntry) (slots : Vector Slot 8) : MeasureResult :=
  let words := (splitWords [] (r.entries classes)).map fun cs => (shapeWord slots (resolveResident slots) cs []).1
  let missing := (words.map ShapedWord.missingCount).sum
  { width := (words.map ShapedWord.width).sum + (words.length - 1) * fineUnits r.space r.setSize
    glyphs := (words.map ShapedWord.elementCount).sum
    missing := missing
    flags :=
      addFlagIf (words.any (·.droppedMark))
        (addFlagIf (decide (0 < missing)) (addFlagIf (resolveResident slots r.font).isNone r.flags .fontMissing)
          .missingGlyph) .markDropped }

/-- The parser state of a return state. -/
def ReturnState.parser : ReturnState → ParserState
  | .idle => .idle
  | .inGalley => .inGalley
  | .skip => .skip

/-- The return state of a parser state in which MEASURE is taken (R54). -/
def returnOf : ParserState → ReturnState
  | .inGalley => .inGalley
  | .skip => .skip
  | .idle => .idle
  | .header => .idle
  | .inMeasure => .idle
  | .waitRecord => .idle
  | .waitLine => .idle
  | .waitLimit => .idle
  | .waitMeasure => .idle

/-- MEASURE taken with the slot EMPTY (R54). -/
def Bench.openMeasure (b : Bench) : Bench :=
  let b := b.withSetting fun s => { s with ret := returnOf s.parser, parser := .inMeasure, pending := none }
  { b with link := { b.link with measure := .gathering newRequest } }

/-- The request of the slot, while one is gathered. -/
def Bench.request (b : Bench) : MeasureRequest :=
  match b.link.measure with
  | .gathering r => r
  | .empty => newRequest
  | .waiting _ => newRequest
  | .sending _ => newRequest

/-- The request being gathered changed by a function. -/
def Bench.withRequest (b : Bench) (f : MeasureRequest → MeasureRequest) : Bench :=
  { b with link := { b.link with measure := .gathering (f b.request) } }

/-- The request closed, its result in the slot, the parser back in its return state (R55, R142). -/
def Bench.closeMeasure (b : Bench) : Bench :=
  let m := b.request.result b.classes b.slots
  let b := b.withSetting fun s => { s with parser := s.ret.parser, pending := none }
  { b with link := { b.link with measure := .waiting m } }

/-- A flag set on the request being gathered (R55). -/
def Bench.flagRequest (b : Bench) (f : GalleyFlag) : Bench := b.withRequest fun r => { r with flags := addFlag r.flags f }

/-! ## Damage markers (R57) -/

/-- The action of a damage marker by the parser's state (R57). -/
def Bench.actMarker (b : Bench) : Bench :=
  let b := b.withSetting fun s => { s with markerDue := false }
  match b.parser with
  | .header => b.damageHeader
  | .inGalley => (b.withSetting fun s => { s with pending := none }).raise .damaged
  | .inMeasure => (b.flagRequest .truncated).closeMeasure
  | .waitRecord => b.withSetting fun s => { s with heldFlags := addFlag s.heldFlags .damaged }
  | .idle => b.withSetting fun s => { s with pending := none }
  | .skip => b.withSetting fun s => { s with pending := none }
  | .waitLine => b.withSetting fun s => { s with markerDue := true }
  | .waitLimit => b.withSetting fun s => { s with markerDue := true }
  | .waitMeasure => b

/-- A marker whose action waited for a held line, acted on when the line is closed (log 12). -/
def Bench.actDueMarker (b : Bench) : Bench := if b.link.setting.markerDue then b.actMarker else b

/-! ## The parser at a kill (R56) -/

/-- The break of the work that follows a line close. -/
def Rest.brk : Rest → Break
  | .word _ brk => brk
  | .breakDue brk => brk
  | .closed brk => brk

/-- The parser goes to SKIP, or to the header of the galley whose GALLEY START is waiting (R56). A marker still due on the
held line is dropped in SKIP, and acts on that header (log 33). -/
def Bench.killParser (b : Bench) : Bench :=
  let s := b.link.setting
  let toSkip :=
    b.withSetting fun s =>
      { s.giveUpGalley with parser := .skip, markerDue := false
                            pending := s.pending.map fun p => { p with passOver := true } }
  match s.parser with
  | .waitLine =>
    if s.held.map (·.rest.brk) = some .galleyStart then (b.withSetting Setting.giveUpGalley).openHeader.actDueMarker
    else toSkip
  | .waitLimit =>
    if s.held.map (·.rest.brk) = some .galleyStart then (b.withSetting Setting.giveUpGalley).openHeader.actDueMarker
    else toSkip
  | .inMeasure => b.withSetting fun s => { s.giveUpGalley with ret := .skip }
  | .waitMeasure => b.withSetting fun s => { s.giveUpGalley with resume := .skip }
  | .inGalley => toSkip
  | .idle => b
  | .header => b
  | .skip => b
  | .waitRecord => b

/-- A kill of a galley of this link, by KILL or KILL GALLEY (R123): the galley, and the parser if it is setting it. -/
def Bench.killGalley (b : Bench) (g : Fin 32) : Bench :=
  let current := decide (b.link.setting.galley = some g) &&
    (match b.table.records[g] with
      | none => false
      | some r => !r.ended)
  let b := { b with table := b.table.kill g .killed }
  if current then b.killParser else b

/-! ## Galley commands of a link (R53) -/

/-- KILL, RESUME or CLASS with its parameters, acting or passed over with its words counted stray (R53). -/
def Bench.galleyCommand (b : Bench) (code : Code) (params : List (Option Word)) : Bench :=
  let words := 1 + params.length
  match params with
  | some n :: more =>
    if n = 0#16 ∨ more.any Option.isNone = true then b.strays words
    else
      match b.table.target b.id n.toNat with
      | none => b.strays words
      | some g =>
        match code with
        | .kill => b.killGalley g
        | .resume => { b with table := b.table.resume g }
        | .class =>
          { b with table := b.table.setClass g (min (match more with
              | some c :: _ => c.toNat
              | _ => 0) 3) }
        | _ => b
  | _ => b.strays words

/-- The codes that are galley commands (R35). -/
def isCommand (c : Code) : Bool := decide (c = .kill) || decide (c = .resume) || decide (c = .class)

/-! ## Copy and context (R42 to R47, R51, R52) -/

/-- The current context changed by a function. -/
def Bench.withCtx (b : Bench) (f : Ctx → Ctx) : Bench := b.withSetting fun s => { s with ctx := s.ctx.map f }

/-- The current context; in IN GALLEY there is one. -/
def Bench.ctx (b : Bench) : Ctx :=
  b.link.setting.ctx.getD { font := none, pointSize := 10, setSize := 10, track := 0, ligatures := true }

/-- The flags that a damaged parameter raises on the galley (R43). -/
def Bench.damagedParam (b : Bench) : Bench := (b.raise .charError).raise .clamped

/-- FONT (R44). -/
def Bench.setFont (b : Bench) (w : Option Word) : Bench :=
  let b := if w.isNone then b.damagedParam else b
  let n := (w.getD 0#16).toNat
  let useSet := match b.link.setting.galley with
    | some g => b.useSet g
    | none => []
  match resolveFor b.slots useSet n with
  | some _ => b.withCtx fun c => { c with font := some n }
  | none => b.raise .fontMissing

/-- A clamped parameter: the value, with the flags it raises (R43). -/
def Bench.clampParam (b : Bench) (w : Option Word) (clamp : Nat → Nat × Bool) (damaged : Nat) : Bench × Nat :=
  match w with
  | none => (b.damagedParam, damaged)
  | some w => (b.raiseIf (clamp w.toNat).2 .clamped, (clamp w.toNat).1)

/-- TRACK (R43, R44). -/
def Bench.setTrack (b : Bench) (w : Option Word) : Bench :=
  match w with
  | none => b.damagedParam.withCtx fun c => { c with track := 0 }
  | some w => (b.raiseIf (clampTrack w).2 .clamped).withCtx fun c => { c with track := (clampTrack w).1 }

/-- EXTRA LEAD (R43, R47). -/
def Bench.addExtraLead (b : Bench) (w : Option Word) : Bench :=
  let r := b.clampParam w (clampAbove 384 384) 0
  let sum := b.link.setting.extraLead + r.2
  (r.1.raiseIf (decide (384 < sum)) .clamped).withSetting fun s => { s with extraLead := min sum 384 }

/-- A code whose parameters are complete, IN GALLEY (R43, R44, R47, R53). -/
def Bench.actParams (b : Bench) (code : Code) (params : List (Option Word)) : Bench :=
  let w := params.headD none
  match code with
  | .font => b.setFont w
  | .pointSize =>
    let r := b.clampParam w (clampRange 10 192) 10
    r.1.withCtx fun c => { c with pointSize := r.2 }
  | .setSize =>
    let r := b.clampParam w (clampRange 10 192) 10
    r.1.withCtx fun c => { c with setSize := r.2 }
  | .track => b.setTrack w
  | .extraLead => b.addExtraLead w
  | .kill => b.galleyCommand .kill params
  | .resume => b.galleyCommand .resume params
  | .class => b.galleyCommand .class params
  | .measure => b
  | .galleyStart => b
  | .galleyEnd => b
  | .ligaturesOn => b
  | .ligaturesOff => b
  | .openContext => b
  | .closeContext => b
  | .hyphenPoint => b
  | .endParagraph => b
  | .quadLeft => b
  | .quadRight => b
  | .quadCentre => b
  | .measureEnd => b
  | .undefined => b

/-- OPEN CONTEXT (R51). -/
def Bench.openContext (b : Bench) : Bench :=
  let s := b.link.setting
  if s.stack.length < 6 then b.withSetting fun s => { s with stack := b.ctx :: s.stack }
  else (b.withSetting fun s => { s with overflow := min (s.overflow + 1) 255 }).raise .contextOverflow

/-- CLOSE CONTEXT (R52). -/
def Bench.closeContext (b : Bench) : Bench :=
  let s := b.link.setting
  if 0 < s.overflow then b.withSetting fun s => { s with overflow := s.overflow - 1 }
  else
    match s.stack with
    | [] => b.raise .contextUnderflow
    | c :: rest => b.withSetting fun s => { s with ctx := some c, stack := rest }

/-- HYPHEN POINT (R45). -/
def Bench.hyphenPoint (b : Bench) : Bench :=
  b.withSetting fun s =>
    if s.buffer.isEmpty ∨ s.buffer.length ∈ s.points then s else { s with points := s.points ++ [s.buffer.length] }

/-- A character entered in the word buffer; the 64th closes the word (R42, R61). -/
def Bench.appendChar (b : Bench) (c : CharEntry) : Bench :=
  let b := b.withSetting fun s => { s with buffer := s.buffer ++ [c] }
  if Config.wordChars ≤ b.link.setting.buffer.length then (b.raise .longWord).closeWord .cut else b

/-- A text character IN GALLEY (R29, R42). -/
def Bench.takeText (b : Bench) (w : Word) : Bench :=
  let cls := classify b.classes w
  if cls.brk = .space then b.closeWord .space else b.appendChar { code := some w, cls := cls, ctx := b.ctx }

/-- A damaged character IN GALLEY (R29, R42). -/
def Bench.takeDamaged (b : Bench) : Bench :=
  (b.raise .charError).appendChar { code := none, cls := defaultClass, ctx := b.ctx }

/-- A code begun whose parameter words are to come; a code without them is not held. -/
def Bench.pend (b : Bench) (code : Code) (passOver : Bool) : Bench :=
  if paramCount code = 0 then b
  else b.withSetting fun s => { s with pending := some { code := code, params := [], passOver := passOver } }

/-- A composition code IN GALLEY (R38 to R56). -/
def Bench.codeInGalley (b : Bench) (c : Code) : Bench :=
  match c with
  | .galleyStart => (b.raise .truncated).closeWord .galleyStart
  | .galleyEnd => b.closeWord .galleyEnd
  | .font => b.pend .font false
  | .pointSize => b.pend .pointSize false
  | .setSize => b.pend .setSize false
  | .track => b.pend .track false
  | .extraLead => b.pend .extraLead false
  | .kill => b.pend .kill false
  | .resume => b.pend .resume false
  | .class => b.pend .class false
  | .ligaturesOn => b.withCtx fun c => { c with ligatures := true }
  | .ligaturesOff => b.withCtx fun c => { c with ligatures := false }
  | .openContext => b.openContext
  | .closeContext => b.closeContext
  | .hyphenPoint => b.hyphenPoint
  | .endParagraph => b.closeWord .endParagraph
  | .quadLeft => b.closeWord (.quad .left)
  | .quadRight => b.closeWord (.quad .right)
  | .quadCentre => b.closeWord (.quad .centre)
  | .measure => b.openMeasure
  | .measureEnd => b.raise .unknownCode
  | .undefined => b.raise .unknownCode

/-- A composition code in IDLE: a galley's opening, a galley command, a measure request, or a stray word (R38, R50, R53,
R54). -/
def Bench.codeInIdle (b : Bench) (c : Code) : Bench :=
  match c with
  | .galleyStart => b.openHeader
  | .measure => b.openMeasure
  | .kill => b.pend .kill false
  | .resume => b.pend .resume false
  | .class => b.pend .class false
  | .galleyEnd => b.strays 1
  | .font => (b.strays 1).pend .font false
  | .pointSize => (b.strays 1).pend .pointSize false
  | .setSize => (b.strays 1).pend .setSize false
  | .track => (b.strays 1).pend .track false
  | .extraLead => (b.strays 1).pend .extraLead false
  | .ligaturesOn => b.strays 1
  | .ligaturesOff => b.strays 1
  | .openContext => b.strays 1
  | .closeContext => b.strays 1
  | .hyphenPoint => b.strays 1
  | .endParagraph => b.strays 1
  | .quadLeft => b.strays 1
  | .quadRight => b.strays 1
  | .quadCentre => b.strays 1
  | .measureEnd => b.strays 1
  | .undefined => b.strays 1

/-- A composition code in SKIP (R56). -/
def Bench.codeInSkip (b : Bench) (c : Code) : Bench :=
  match c with
  | .galleyStart => b.openHeader
  | .galleyEnd => b.goto .idle
  | .measure => b.openMeasure
  | .kill => b.pend .kill false
  | .resume => b.pend .resume false
  | .class => b.pend .class false
  | .font => b.pend .font true
  | .pointSize => b.pend .pointSize true
  | .setSize => b.pend .setSize true
  | .track => b.pend .track true
  | .extraLead => b.pend .extraLead true
  | .ligaturesOn => b
  | .ligaturesOff => b
  | .openContext => b
  | .closeContext => b
  | .hyphenPoint => b
  | .endParagraph => b
  | .quadLeft => b
  | .quadRight => b
  | .quadCentre => b
  | .measureEnd => b
  | .undefined => b

/-- A composition code taken in the state the parser is in, outside a header and a measure request. -/
def Bench.takeCode (b : Bench) (c : Code) : Bench :=
  match b.parser with
  | .idle => b.codeInIdle c
  | .inGalley => b.codeInGalley c
  | .skip => b.codeInSkip c
  | .header => b
  | .inMeasure => b
  | .waitRecord => b
  | .waitLine => b
  | .waitLimit => b
  | .waitMeasure => b

/-- A word in code position in IDLE (R37, R50). -/
def Bench.sortInIdle (b : Bench) (w : Option Word) : Bench :=
  match sortWord w with
  | .fill => b
  | .damaged => b.strays 1
  | .text _ => b.strays 1
  | .code c => b.codeInIdle c

/-- A word in code position IN GALLEY (R37, R42). -/
def Bench.sortInGalley (b : Bench) (w : Option Word) : Bench :=
  match sortWord w with
  | .fill => b
  | .damaged => b.takeDamaged
  | .text w => b.takeText w
  | .code c => b.codeInGalley c

/-- A word in code position in SKIP (R56). -/
def Bench.sortInSkip (b : Bench) (w : Option Word) : Bench :=
  match sortWord w with
  | .fill => b
  | .damaged => b
  | .text _ => b
  | .code c => b.codeInSkip c

/-- A word in code position in IN MEASURE (R55). -/
def Bench.sortInMeasure (b : Bench) (w : Option Word) : Bench :=
  match sortWord w with
  | .fill => b
  | .damaged => b.withRequest fun r => r.takeChar none
  | .text w => b.withRequest fun r => r.takeChar (some w)
  | .code .measureEnd => b.closeMeasure
  | .code .galleyStart => ((b.flagRequest .truncated).closeMeasure).takeCode .galleyStart
  | .code .galleyEnd => ((b.flagRequest .truncated).closeMeasure).takeCode .galleyEnd
  | .code c => (b.flagRequest .unknownCode).pend c true

/-- A parameter word of a pending code (R37, R43, R50, R53, R56). -/
def Bench.takeParam (b : Bench) (p : PendingCode) (w : Option Word) : Bench :=
  let params := p.params ++ [w]
  let whole := decide (paramCount p.code ≤ params.length)
  let b := b.withSetting fun s => { s with pending := if whole then none else some { p with params := params } }
  if p.passOver then b
  else
    match b.parser with
    | .idle =>
      if isCommand p.code then (if whole then b.galleyCommand p.code params else b) else b.strays 1
    | .inGalley => if whole then b.actParams p.code params else b
    | .skip => if isCommand p.code && whole then b.galleyCommand p.code params else b
    | .header => b
    | .inMeasure => b
    | .waitRecord => b
    | .waitLine => b
    | .waitLimit => b
    | .waitMeasure => b

/-- A word in code or parameter position, outside a header. -/
def Bench.dealOutsideHeader (b : Bench) (w : Option Word) : Bench :=
  match b.link.setting.pending with
  | some p => b.takeParam p w
  | none =>
    match b.parser with
    | .idle => b.sortInIdle w
    | .inGalley => b.sortInGalley w
    | .skip => b.sortInSkip w
    | .inMeasure => b.sortInMeasure w
    | .header => b
    | .waitRecord => b
    | .waitLine => b
    | .waitLimit => b
    | .waitMeasure => b

/-- A word dealt with in the usual way, by the position at which it stands (R37). -/
def Bench.dealWord (b : Bench) (w : Option Word) : Bench :=
  match b.parser with
  | .header => b.takeHeader w
  | .inMeasure =>
    if b.request.taken < 4 then b.withRequest fun r => r.takeParam w else b.dealOutsideHeader w
  | .idle => b.dealOutsideHeader w
  | .inGalley => b.dealOutsideHeader w
  | .skip => b.dealOutsideHeader w
  | .waitRecord => b
  | .waitLine => b
  | .waitLimit => b
  | .waitMeasure => b

/-! ## Turns (R117, R134, R138) -/

/-- The word MEASURE stands at the head of the ring in a position where it is a code, and the slot is not EMPTY (R54). -/
def Bench.measureMustWait (b : Bench) (e : RingEntry) : Bool :=
  (decide (b.parser = .idle) || decide (b.parser = .inGalley) || decide (b.parser = .skip)) &&
    b.link.setting.pending.isNone && decide (sortWord e.code = .code .measure) && decide (b.link.measure ≠ .empty)

/-- An entry taken from the head of the ring, with its drop count, its word and its marker (R134, R138, R57). A MEASURE
that must wait stays at the head (R54). -/
def Bench.takeEntry (b : Bench) (e : RingEntry) : Bench :=
  if b.measureMustWait e then
    b.withSetting fun s => { s with resume := returnOf s.parser, parser := .waitMeasure }
  else
    let b := { b with link := { b.link with rx := b.link.rx.take } }
    let b := if b.parser = .idle then b.strays e.drop else b
    let b := b.dealWord e.code
    if e.marker then b.actMarker else b

/-- A link's turn: none when it is passed over (R117). -/
def Bench.turn (b : Bench) : Option Bench :=
  match b.parser with
  | .waitRecord => b.table.lowestFree.map fun g => b.allocate g
  | .waitLine => if b.table.freeLines = 0 then none else some b.releaseLine.actDueMarker
  | .waitLimit =>
    match b.link.setting.galley with
    | none => none
    | some g => if b.table.limitHolds g then none else some b.releaseLine.actDueMarker
  | .waitMeasure =>
    match b.link.measure, b.link.rx.ring with
    | .empty, e :: _ => some ((b.withSetting fun s => { s with parser := s.resume.parser }).takeEntry e)
    | _, _ => none
  | .idle => b.link.rx.ring.head?.map fun e => b.takeEntry e
  | .header => b.link.rx.ring.head?.map fun e => b.takeEntry e
  | .inGalley => b.link.rx.ring.head?.map fun e => b.takeEntry e
  | .skip => b.link.rx.ring.head?.map fun e => b.takeEntry e
  | .inMeasure => b.link.rx.ring.head?.map fun e => b.takeEntry e

/-- The setting context after a break (R58): everything given up, the parser IDLE. -/
def Setting.afterBreak (_ : Setting) : Setting := idleSetting

/-- A break on the link (R58, R123, R139): the receiver, the kill of the current galley, the context and the slot. -/
def Bench.breakLink (b : Bench) : Bench :=
  let table :=
    match b.link.setting.galley with
    | none => b.table
    | some g =>
      match b.table.records[g] with
      | none => b.table
      | some r => if r.ended then b.table else b.table.kill g .abandoned
  { b with
    table := table
    link := { b.link with rx := b.link.rx.afterBreak, setting := b.link.setting.afterBreak, measure := .empty } }

/-- The Setter's view of a link. -/
def State.bench (s : State) (i : Fin 4) : Bench :=
  { classes := s.classes, slots := s.slots, table := s.table, id := i, link := s.links[i] }

/-- The state after the Setter's work on a link. -/
def State.putBench (s : State) (b : Bench) : State :=
  { s with slots := b.slots, table := b.table, links := s.links.set b.id b.link }

end Sys2Proof.Machine
end

