-- ==== Sys2Proof/Machine/Imaging.lean ====
section
/-! DEFINITION. The Exposure Controller: records and answers, the walk, the cache mirror, outline fetches, faults and
CLEAR UNIT (chapter 10). -/

namespace Sys2Proof.Machine

/-! ## Records (R162; 11.4) -/

/-- The words of a record as far as they have been sent; a LOAD OUTLINE that waits for its outline has sent its first
word only (11.4, R168). -/
def Record.words : Record → List Word
  | .cacheClear => [0x0100#16]
  | .galleyOpen number link continuation dots =>
    [0x0200#16, natWord number, packWord link.val continuation.toNat, natWord dots]
  | .advance dots => [0x0300#16, natWord dots]
  | .loadOutline entry none => [packWord 4 entry.val]
  | .loadOutline entry (some ws) => [packWord 4 entry.val, natWord ws.length] ++ ws
  | .exposeGlyph entry x raise p s => [packWord 5 entry.val, natWord x, intWord raise, packWord p s]
  | .killMark => [0x0600#16]
  | .galleyClose => [0x0700#16]

/-- The kind of a record: the high byte of its first word (11.3, 11.4). -/
def Record.kind : Record → Nat
  | .cacheClear => 1
  | .galleyOpen _ _ _ _ => 2
  | .advance _ => 3
  | .loadOutline _ _ => 4
  | .exposeGlyph _ _ _ _ _ => 5
  | .killMark => 6
  | .galleyClose => 7

/-- The timer of a record in milliseconds (R162). -/
def Record.timerMs : Record → Nat
  | .cacheClear => 2000
  | .galleyOpen _ _ _ _ => 2000
  | .advance _ => 6000
  | .loadOutline _ _ => 2000
  | .exposeGlyph _ _ _ _ _ => 2000
  | .killMark => 2000
  | .galleyClose => 6000

/-- The last word of a record has been sent (R162, R168). -/
def Record.sentWhole : Record → Bool
  | .loadOutline _ none => false
  | .loadOutline _ (some _) => true
  | .cacheClear => true
  | .galleyOpen _ _ _ _ => true
  | .advance _ => true
  | .exposeGlyph _ _ _ _ _ => true
  | .killMark => true
  | .galleyClose => true

/-- The one timer runs while a record is outstanding (R162). -/
def Imaging.timerRuns (m : Imaging) : Bool := m.out.isSome

/-- A record sent: it is outstanding and the unit is SENDING (R162, R163). -/
def Imaging.send (m : Imaging) (r : Record) : Imaging :=
  { m with unit := .sending, out := some { record := r, void := false } }

/-- CACHE CLEAR sent with the mirror emptied (R163, R167, R172, R173). -/
def Imaging.sendCacheClear (m : Imaging) : Imaging := { m with mirror := [] }.send .cacheClear

/-! ## The view of the walk -/

/-- What the walk works on: the slots' outline directories, the Galley Table, and the Exposure Controller. -/
structure Film where
  slots : Vector Slot 8
  table : GalleyTable
  img : Imaging
deriving DecidableEq, Repr

/-- The Exposure Controller's part changed by a function. -/
def Film.withImg (f : Film) (g : Imaging → Imaging) : Film := { f with img := g f.img }

/-- A record sent. -/
def Film.send (f : Film) (r : Record) : Film := f.withImg fun m => m.send r

/-- IMAGE LOST flagged on the exposing galley (R21, R113). -/
def Film.flagImageLost (f : Film) : Film :=
  match f.img.galley with
  | none => f
  | some g => { f with table := f.table.raiseFlag g .imageLost }

/-- The exposing galley's record. -/
def Film.galley (f : Film) : Option Galley := f.img.galley.bind fun g => f.table.records[g]

/-! ## The cache mirror (R166) -/

/-- The mirror entry of a key. -/
def mirrorFind (mirror : List MirrorEntry) (slot : Fin 8) (glyph : Nat) : Option MirrorEntry :=
  mirror.find? fun e => decide (e.slot = slot) && decide (e.glyph = glyph)

/-- An entry moved to the most recent end (R166). -/
def mirrorTouch (mirror : List MirrorEntry) (e : MirrorEntry) : List MirrorEntry :=
  mirror.filter (·.entry ≠ e.entry) ++ [e]

/-- The lowest-numbered free unit entry (R166). -/
def lowestFreeEntry (mirror : List MirrorEntry) : Option (Fin 64) :=
  entryIds.find? fun n => mirror.all fun e => decide (e.entry ≠ n)

/-- The unit entry chosen at a miss and the mirror without what was evicted for it (R166). -/
def chooseEntry (mirror : List MirrorEntry) : Fin 64 × List MirrorEntry :=
  match lowestFreeEntry mirror, mirror with
  | some n, _ => (n, mirror)
  | none, e :: rest => (e.entry, rest)
  | none, [] => (0, [])

/-- The blank-by-loss mark set on the entry of a unit entry (R168, R169). -/
def markBlank (mirror : List MirrorEntry) (n : Fin 64) : List MirrorEntry :=
  mirror.map fun e => if e.entry = n then { e with blank := true } else e

/-! ## Outlines (R168, R169) -/

/-- The outline directory entry of a glyph (R4). -/
def outlineOf (slot : Slot) (glyph : Nat) : OutlineEntry := slot.outlines.getD glyph { offset := 0, count := 0 }

/-- An outline delivered: the LOAD OUTLINE outstanding is completed with its words (R168). -/
def Imaging.deliver (m : Imaging) (words : List Word) : Imaging :=
  { m with fetch := none, buffer := words
           out := m.out.map fun o =>
             match o.record with
             | .loadOutline n _ => { o with record := .loadOutline n (some words) }
             | _ => o }

/-- The unit entry named by the LOAD OUTLINE outstanding. -/
def Imaging.loadEntry (m : Imaging) : Option (Fin 64) :=
  match m.out with
  | some o =>
    match o.record with
    | .loadOutline n _ => some n
    | _ => none
  | none => none

/-- An outline delivered as 0 words for want of its image: the blank-by-loss mark set, IMAGE LOST flagged (R168,
R169). -/
def Film.deliverBlank (f : Film) : Film :=
  let f := f.withImg fun m =>
    { m with mirror := match m.loadEntry with
      | some n => markBlank m.mirror n
      | none => m.mirror }
  (f.withImg fun m => m.deliver []).flagImageLost

/-- A LOAD OUTLINE begun for a glyph (R168): delivered at once, or handed to the fetcher. -/
def Film.beginLoad (f : Film) (n : Fin 64) (slot : Fin 8) (glyph : Nat) : Film :=
  let f := f.send (.loadOutline n none)
  let o := outlineOf f.slots[slot] glyph
  if f.slots[slot].imageLost then f.deliverBlank
  else if o.count = 0 then f.withImg fun m => m.deliver []
  else
    f.withImg fun m =>
      { m with fetch := some { slot := slot, bank := f.slots[slot].bank, offset := o.offset, count := o.count } }

/-! ## The walk (R164 to R166, R170) -/

/-- The next entry of a placed-glyph list, from a position on, that has a slot, with its position (R164). -/
def nextPlaced : List PlacedGlyph → Nat → Option (Nat × Fin 8 × PlacedGlyph)
  | [], _ => none
  | p :: rest, at_ =>
    match p.slot with
    | some s => some (at_, s, p)
    | none => nextPlaced rest (at_ + 1)

/-- EXPOSE GLYPH of a placed-glyph entry from a unit entry (R162, R164). -/
def exposeRecord (n : Fin 64) (p : PlacedGlyph) : Record := .exposeGlyph n p.x p.raise p.pointSize p.setSize

/-- A placed-glyph entry taken up: a hit exposes it, a miss begins its load (R166). -/
def Film.takeUp (f : Film) (slot : Fin 8) (p : PlacedGlyph) : Film :=
  match mirrorFind f.img.mirror slot p.glyph with
  | some e =>
    let f := f.withImg fun m => { m with mirror := mirrorTouch m.mirror e }
    let f := if e.blank then f.flagImageLost else f
    f.send (exposeRecord e.entry p)
  | none =>
    let c := chooseEntry f.img.mirror
    let f := f.withImg fun m =>
      { m with mirror := c.2 ++ [{ entry := c.1, slot := slot, glyph := p.glyph, blank := false }] }
    f.beginLoad c.1 slot p.glyph

/-- The head line's ADVANCE sent; the line is in progress from its first entry (R164). -/
def Film.advance (f : Film) (line : LineRecord) : Film :=
  (f.withImg fun m => { m with pos := 0, inProgress := true }).send (.advance line.advance)

/-- The walk between two lines: KILL MARK if a kill is pending, the next ADVANCE, GALLEY CLOSE, or WAITING LINES
(R164, R165, R170). -/
def Film.betweenLines (f : Film) : Film :=
  let f := f.withImg fun m => { m with pos := 0, inProgress := false }
  match f.galley with
  | none => f
  | some r =>
    if r.killPending then f.send .killMark
    else
      match r.lines with
      | line :: _ => f.advance line
      | [] =>
        if r.ended then f.send .galleyClose
        else f.withImg fun m => { m with unit := .waitingLines, out := none }

/-- The line in progress freed at the ACK of its last record (R165, R116). -/
def Film.freeLine (f : Film) : Film :=
  match f.img.galley with
  | none => f
  | some g => { f with table := f.table.freeHeadLine g }.betweenLines

/-- The walk within the line in progress: the next entry that has a slot is taken up, or the line is freed (R164). -/
def Film.nextEntry (f : Film) : Film :=
  match f.galley with
  | none => f
  | some r =>
    match r.lines with
    | [] => f.betweenLines
    | line :: _ =>
      match nextPlaced (line.glyphs.drop f.img.pos) f.img.pos with
      | some (at_, slot, p) => (f.withImg fun m => { m with pos := at_ + 1 }).takeUp slot p
      | none => f.freeLine

/-- The ACK of a LOAD OUTLINE: EXPOSE GLYPH of the entry it was loaded for (R166). -/
def Film.exposeLoaded (f : Film) (n : Fin 64) : Film :=
  match f.galley with
  | none => f
  | some r =>
    match r.lines with
    | [] => f
    | line :: _ =>
      match line.glyphs[f.img.pos - 1]? with
      | some p => f.send (exposeRecord n p)
      | none => f

/-- The ACK of the exposing galley's GALLEY CLOSE: the galley DONE, the unit READY (R121, R165). -/
def Film.closeAcked (f : Film) : Film :=
  let table := match f.img.galley with
    | none => f.table
    | some g => f.table.closed g
  { f with table := table
           img := { f.img with unit := .ready, out := none, galley := none, pos := 0, inProgress := false } }

/-- What an ACK of the outstanding record brings about (R163, R164, R165, R170). -/
def Film.acked (f : Film) (r : Record) : Film :=
  match r with
  | .cacheClear => f.withImg fun m => { m with unit := .ready, out := none }
  | .galleyOpen _ _ _ _ => f.betweenLines
  | .advance _ => f.nextEntry
  | .loadOutline n _ => f.exposeLoaded n
  | .exposeGlyph _ _ _ _ _ => f.nextEntry
  | .killMark => f.send .galleyClose
  | .galleyClose => f.closeAcked

/-- A void record concluded: CACHE CLEAR is sent if the unit is SENDING (R163, R173). -/
def Imaging.voidEnded (m : Imaging) : Imaging :=
  let m := { m with out := none }
  if m.unit = .sending then m.sendCacheClear else m

/-- A galley chosen for film handed to the Exposure Controller (R120, R164). -/
def Film.open (f : Film) (g : Fin 32) : Film :=
  let f := { f with table := f.table.select g }
  match f.table.records[g] with
  | none => f
  | some r =>
    (f.withImg fun m => { m with galley := some g, pos := 0, inProgress := false }).send
      (.galleyOpen r.number r.link r.continuation (r.header.measure * 8))

/-! ## Faults (R171) -/

/-- The unit in FAULT: the timer stopped, a fetch abandoned, the exposing galley's state decided by R122, the walk
holding no galley (R171). -/
def Film.fault (f : Film) : Film :=
  let table := match f.img.galley with
    | none => f.table
    | some g => f.table.faulted g
  { f with table := table
           img := { f.img with unit := .fault, out := none, galley := none, pos := 0, inProgress := false, fetch := none } }

/-- The view of the walk in a state. -/
def State.film (s : State) : Film := { slots := s.slots, table := s.table, img := s.imaging }

/-- The state after the Exposure Controller's work; the slots are only read. -/
def State.putFilm (s : State) (f : Film) : State := { s with table := f.table, imaging := f.img }

/-- A fault with the attention cause it sets (R171, R158): a timeout, or a fault of a kind. -/
def State.faultUnit (s : State) (kind : Option FaultKind) : State :=
  { s.putFilm s.film.fault with
    attention := match kind with
      | some k => { s.attention with unitFault := some k }
      | none => { s.attention with unitTimeout := true } }

/-- The exposing galley given up at a library reset (R173). -/
def Imaging.afterLibraryReset (m : Imaging) : Imaging :=
  let m : Imaging :=
    { m with galley := none, pos := 0, inProgress := false, fetch := none, mirror := []
             out := m.out.map fun o => { o with void := true } }
  if m.ready then (if m.out.isSome then { m with unit := .sending } else m.sendCacheClear)
  else { m with unit := .offline }

end Sys2Proof.Machine
end

