-- ==== Sys2Proof/Machine/Reactions.lean ====
section
/-! DEFINITION. What every event brings about besides its own effect, in the same event: the walk wakes, a selection
round is taken, the bus is given, replies are taken, a stall is noticed (R119, R129, R143, R151, R165; log 7). -/

namespace Sys2Proof.Machine

/-- In WAITING LINES a kill, a line or the end of the galley sends the next record (R165, R170). -/
def State.wakeWalk (s : State) : State :=
  if s.imaging.unit = .waitingLines then s.putFilm s.film.betweenLines else s

/-- A selection round: the unit READY, no galley EXPOSING, the eligible list not empty (R119, R120). -/
def State.selectionRound (s : State) : State :=
  if s.imaging.unit = .ready ∧ s.imaging.galley = none then
    match s.table.choose with
    | none => s
    | some g => s.putFilm (s.film.open g)
  else s

/-- A user of the bus has work that waits for it or holds it (R151). -/
def State.wantsBus (s : State) : BusUser → Bool
  | .copy => s.copy.isSome
  | .fetcher => s.imaging.fetch.isSome
  | .store =>
    match s.port.phase with
    | .acting _ => true
    | .ready => false
    | .taking _ => false
    | .responding _ => false
  | .hold => s.bus.holdRequest

/-- The user that the free bus goes to (R151). -/
def State.nextUser (s : State) : Option BusUser :=
  if s.wantsBus .hold then some .hold
  else if s.wantsBus .store then some .store
  else
    match s.wantsBus .copy, s.wantsBus .fetcher with
    | true, true => if s.bus.last = some .fetcher then some .copy else some .fetcher
    | true, false => some .copy
    | false, true => some .fetcher
    | false, false => none

/-- A unit of the copy or the fetcher counted (R151). -/
def unitTaken (last : Option BusUser) : BusUser → Option BusUser
  | .copy => some .copy
  | .fetcher => some .fetcher
  | .store => last
  | .hold => last

/-- A holder that wants the bus no more gives it up, and a free bus goes to the next user (R150, R151, R152). -/
def State.giveBus (s : State) : State :=
  let holder := s.bus.holder.filter s.wantsBus
  match holder with
  | some u => { s with bus := { s.bus with holder := some u } }
  | none =>
    match s.nextUser with
    | some u => { s with bus := { s.bus with holder := some u, last := unitTaken s.bus.last u } }
    | none => { s with bus := { s.bus with holder := none } }

/-- The unit of the bus's holder has ended (R151). -/
def State.endUnit (s : State) : State := { s with bus := { s.bus with holder := none } }

/-- A link's transmitter takes a reply, if it can (R143). -/
def State.replyOn (s : State) (i : Fin 4) : State :=
  let r := takeReply s.table i s.links[i]
  { s with table := r.1, links := s.links.set i r.2 }

/-- Replies taken on all links (R143). -/
def State.replies (s : State) : State := (((s.replyOn 0).replyOn 1).replyOn 2).replyOn 3

/-- STORE STALLED is set when the stall condition comes to hold (R129). -/
def State.noticeStall (s : State) : State :=
  let holds := s.table.stallHolds
  { s with table := { s.table with stalled := holds }
           attention :=
             if holds && !s.table.stalled then { s.attention with storeStalled := true } else s.attention }

/-- The reactions that complete an event (log 7). -/
def State.settle (s : State) : State := s.wakeWalk.selectionRound.giveBus.replies.noticeStall

end Sys2Proof.Machine
end

