-- ==== Sys2Proof/Machine/Status.lean ====
section
/-! DEFINITION. The sections of READ STATUS (R22, R131, R146, R157, R158, R174; 11.3; layout details log 18). -/

namespace Sys2Proof.Machine

/-- A list: a count word followed by its members (11.3). -/
def listWords (members : List Word) : List Word := natWord members.length :: members

/-- A set of record indices in order, as a list of words. -/
def indexWords (gs : List (Fin 32)) : List Word := listWords (gs.map fun g => natWord g.val)

/-! ## Directory (R22) -/

/-- Slot states numbered from 1 in the order of the table of 1.1. -/
def SlotState.code : SlotState → Nat
  | .empty => 1
  | .loading => 2
  | .resident => 3
  | .retiring => 4

/-- The fields of R1 other than the tables; the offset takes two words (R22; 11.3). -/
def slotFields (x : Slot) : List Word :=
  [natWord x.state.code, natWord x.fontNumber, natWord x.refCount, natWord x.bank] ++ twoWords x.offset ++
    [natWord x.glyphCount, flagWord x.imageLost, flagWord x.prot, natWord x.fallback, natWord x.elongation,
     natWord x.stackStep]

/-- The directory section. -/
def State.directorySection (s : State) : List Word := slotIds.flatMap fun i => slotFields s.slots[i]

/-! ## Banks (R157) -/

/-- The kinds of a bank position (11.3). -/
def BankKind.code : BankKind → Nat
  | .cartridge => 1
  | .board => 2
  | .absent => 3

/-- The bus holder (11.3). -/
def holderCode : Option BusUser → Nat
  | none => 0
  | some .copy => 1
  | some .fetcher => 2
  | some .store => 3
  | some .hold => 4

/-- HOLD ACK: the hold has the bus (R152, log 21). -/
def Bus.holdAck (b : Bus) : Bool := decide (b.holder = some .hold)

/-- One position's fields. -/
def State.bankFields (s : State) (i : Fin 8) : List Word :=
  [flagWord s.banks[i].board.isSome, flagWord s.banks[i].cartridge.isSome, natWord s.banks[i].kind.code,
   flagWord s.banks[i].prot, flagWord (guarded s.slots i)]

/-- The banks section. -/
def State.banksSection (s : State) : List Word :=
  slotIds.flatMap s.bankFields ++
    [natWord (holderCode s.bus.holder), flagWord s.bus.holdRequest, flagWord s.bus.holdAck]

/-! ## Galley table (R131) -/

/-- One record: the free flag, and the fields of an allocated record (R131). -/
def recordFields : Option Galley → List Word
  | none => [flagWord true]
  | some r =>
    [flagWord false, natWord r.link.val, natWord r.number, natWord r.cls, natWord r.deadline, natWord r.state.code,
     natWord r.outcome.code, r.flags, natWord r.linesSet, natWord r.linesExposed, natWord r.lines.length,
     natWord r.missing, slotSetWord r.useSet, flagWord r.mark, flagWord r.ended, flagWord r.killPending,
     flagWord r.continuation, flagWord r.selected]

/-- The galley table section. -/
def State.galleySection (s : State) : List Word :=
  recordIds.flatMap (fun g => recordFields s.table.records[g]) ++ indexWords s.table.eligible ++
    indexWords s.table.order ++ [natWord s.table.freeLines, flagWord s.table.stallHolds]

/-! ## Links (R146) -/

/-- Receive states numbered from 1 in the order of the table of R135. -/
def ReceiveState.code : ReceiveState → Nat
  | .disabled => 1
  | .receiving => 2
  | .discard => 3

/-- Parser states numbered from 1 in the order of the table of R36. -/
def ParserState.code : ParserState → Nat
  | .idle => 1
  | .header => 2
  | .inGalley => 3
  | .skip => 4
  | .inMeasure => 5
  | .waitRecord => 6
  | .waitLine => 7
  | .waitLimit => 8
  | .waitMeasure => 9

/-- Measure slot states numbered from 1 in the order of the table of R142. -/
def MeasureSlot.code : MeasureSlot → Nat
  | .empty => 1
  | .gathering _ => 2
  | .waiting _ => 3
  | .sending _ => 4

/-- Transmitter states (11.3). -/
def TransmitState.code : TransmitState → Nat
  | .idle => 1
  | .sending => 2
  | .held => 3

/-- The enable flag: the receive state is not DISABLED (R135, R140, log 21). -/
def Receiver.enabled (rx : Receiver) : Bool := decide (rx.recv ≠ .disabled)

/-- One link's fields (R146); the return state is coded as a parser state (11.3). -/
def linkFields (l : Link) : List Word :=
  [natWord l.rx.rate.code, flagWord l.rx.enabled, natWord l.rx.recv.code, flagWord l.rx.discardPending,
   natWord l.rx.drop, natWord l.rx.ring.length, flagWord l.rx.readyOut, flagWord l.tx.feReady, natWord l.rx.stray,
   natWord l.setting.parser.code, natWord l.setting.ret.parser.code, natWord l.measure.code, natWord l.tx.state.code]

/-- The links section. -/
def State.linksSection (s : State) : List Word := linkIds.flatMap fun i => linkFields s.links[i]

/-! ## Unit (R174) -/

/-- Unit states numbered from 1 in the order of the table of 10.2. -/
def UnitState.code : UnitState → Nat
  | .offline => 1
  | .ready => 2
  | .sending => 3
  | .waitingLines => 4
  | .fault => 5

/-- The record outstanding, 0 for none, and whether it is void (11.3). -/
def outstandingFields : Option Outstanding → List Word
  | none => [0#16, flagWord false]
  | some o => [natWord o.record.kind, flagWord o.void]

/-- The exposing galley's record index, FFFFh for none (11.3). -/
def galleyIndexWord : Option (Fin 32) → Word
  | none => 0xFFFF#16
  | some g => natWord g.val

/-- The line number of the head line of the exposing galley, 0 for none (11.3). -/
def State.headLineNumber (s : State) : Nat :=
  match s.film.galley with
  | none => 0
  | some r =>
    match r.lines with
    | [] => 0
    | line :: _ => line.number

/-- The fetcher: none, waiting for the bus, reading (11.3). -/
def State.fetchCode (s : State) : Nat :=
  if s.imaging.fetch.isNone then 0 else if s.bus.holder = some .fetcher then 2 else 1

/-- A cache mirror entry in four words (11.3). -/
def mirrorWords (e : MirrorEntry) : List Word :=
  [natWord e.entry.val, natWord e.slot.val, natWord e.glyph, flagWord e.blank]

/-- The unit section. -/
def State.unitSection (s : State) : List Word :=
  let m := s.imaging
  [natWord m.unit.code, flagWord m.ready] ++ outstandingFields m.out ++
    [galleyIndexWord m.galley, natWord s.headLineNumber, flagWord m.inProgress, natWord m.pos, natWord s.fetchCode,
     natWord m.mirror.length] ++ m.mirror.flatMap mirrorWords ++ [natWord (Config.cacheEntries - m.mirror.length)]

/-! ## Attention (R158) -/

/-- The details of the causes that are set and hold one, in ascending cause number (11.3). -/
def Attention.details (a : Attention) : List Word :=
  ((a.installDone.map fun i => natWord i.val).toList ++ (a.installFailed.map fun r => natWord r.code).toList) ++
    ((a.unitFault.map fun k => natWord k.code).toList ++ (a.guardViolation.map fun p => natWord p.val).toList) ++
    ((a.cartridgeChange.map fun p => natWord p.toNat).toList ++ (a.imageLost.map fun p => natWord p.toNat).toList)

/-- The attention section. -/
def Attention.report (a : Attention) : List Word := natWord (bitsWord a.causes) :: a.details

/-! ## The response -/

/-- The section that a section word names, none above 5 (R157; 11.3). -/
def State.statusSection (s : State) (sec : Nat) : Option (List Word) :=
  match sec with
  | 0 => some s.directorySection
  | 1 => some s.banksSection
  | 2 => some s.galleySection
  | 3 => some s.linksSection
  | 4 => some s.unitSection
  | 5 => some s.attention.report
  | _ => none

/-- The response of READ STATUS (R157; 11.3). -/
def State.statusResponse (s : State) (sec : Word) : List Word :=
  match s.statusSection sec.toNat with
  | some fields => doneResponse ++ listWords fields
  | none => refusedResponse .badValue

end Sys2Proof.Machine
end

