-- ==== Sys2Proof/Machine/Port.lean ====
section
/-! DEFINITION. The library port: its four states, the taking of blocks, and what each command does (chapters 1, 2, 7,
8, 9 and 10; R154; 11.3). -/

namespace Sys2Proof.Machine

/-! ## The port's states (R154) -/

/-- The port in RESPONDING with a response block. -/
def State.respond (s : State) (response : List Word) : State :=
  { s with port := { s.port with phase := .responding response } }

/-- The port in ACTING: a store command waits for the bus (R154, R155, R156). -/
def State.startStore (s : State) (op : StoreOp) : State :=
  { s with port := { s.port with phase := .acting op } }

/-- The port in TAKING with the words of a block taken so far. -/
def State.gather (s : State) (words : List Word) : State :=
  { s with port := { s.port with phase := .taking words } }

/-- Words offered in ACTING or RESPONDING: not taken, they wait at the station with the strobe unanswered (R154, log 5). -/
def State.keepOffered (s : State) (words : List Word) : State :=
  { s with port := { s.port with offered := s.port.offered ++ words } }

/-- The strobe of a word that is offered and not answered (R154, log 21). -/
def Port.strobe (p : Port) : Bool := !p.offered.isEmpty

/-- The port READY with no word offered (R154). -/
def State.portReady (s : State) : State := { s with port := { phase := .ready, offered := [] } }

/-! ## Fonts (R5, R11) -/

/-- A slot made LOADING with its image location, and the copy begun: it fails at once at R7's first check if the named
position is not present or is no position (R5, R7, R175). -/
def State.startCopy (s : State) (i : Fin 8) (bank offset : Nat) : State :=
  let s := { s with slots := s.slots.set i { emptySlotRecord with state := .loading, bank := bank, offset := offset } }
  match bankNumber bank with
  | none => s.failCopy i .outOfBank
  | some b =>
    if s.banks[b].present then { s with copy := some { slot := i, header := [], prot := s.banks[b].prot } }
    else s.failCopy i .outOfBank

/-- INSTALL FONT (R5). -/
def actInstallFont (bank : Word) (offset : BitVec 32) (s : State) : State :=
  if anyLoading s.slots then s.respond busyResponse
  else
    match lowestEmpty s.slots with
    | none => s.respond (refusedResponse .noSlot)
    | some i => ((s.startCopy i bank.toNat offset.toNat).respond startedResponse).settle

/-- RETIRE FONT (R11). -/
def actRetireFont (font : Word) (s : State) : State :=
  match resolveResident s.slots font.toNat with
  | none => s.respond (refusedResponse .notResident)
  | some i => ((s.withdraw i).respond doneResponse).settle

/-! ## Font store (R155, R156) -/

/-- A count word is in its range, 1 to 64 (R155, R156). -/
def storeCountOk (count : Word) : Bool := decide (1 ≤ count.toNat) && decide (count.toNat ≤ 64)

/-- READ STORE (R155). -/
def actReadStore (bank : Word) (offset : BitVec 32) (count : Word) (s : State) : State :=
  match bankNumber bank.toNat with
  | none => s.respond (refusedResponse .badValue)
  | some b =>
    if storeCountOk count = true ∧ offset.toNat + count.toNat ≤ Config.bankWords then
      (s.startStore (.read b offset.toNat count.toNat)).settle
    else s.respond (refusedResponse .badValue)

/-- WRITE STORE (R156): the words stored are as many as the count names. -/
def actWriteStore (bank : Word) (offset : BitVec 32) (count : Word) (words : List Word) (s : State) : State :=
  match bankNumber bank.toNat with
  | none => s.respond (refusedResponse .badValue)
  | some b =>
    if storeCountOk count = true ∧ offset.toNat + count.toNat ≤ Config.bankWords then
      (s.startStore (.write b offset.toNat (words.take count.toNat))).settle
    else s.respond (refusedResponse .badValue)

/-! ## Class list (R32) -/

/-- The most entries of a class list (R24, R32). -/
def classListMax : Nat := 48

/-- LOAD CLASS LIST (R32). -/
def actLoadClassList (count : Word) (entries : List ClassWords) (s : State) : State :=
  if classListMax < count.toNat then s.respond (refusedResponse .badList)
  else
    match readClassList entries with
    | none => s.respond (refusedResponse .badList)
    | some list => { s with classes := list }.respond doneResponse

/-! ## Links (R140) -/

/-- A link number of a command word. -/
def linkNumber (n : Nat) : Option (Fin 4) := if h : n < 4 then some ⟨n, h⟩ else none

/-- SET LINK's action on a receiver: rate, enable choice, stray choice (R140). -/
def Receiver.control (rx : Receiver) (rate : Rate) (enable clear : Bool) : Receiver :=
  let rx := { rx with rate := rate }
  let rx := if enable then rx.enable else rx.disable
  if clear then { rx with stray := 0 } else rx

/-- SET LINK (R140, R175). -/
def actSetLink (link rate enable stray : Word) (s : State) : State :=
  match linkNumber link.toNat, rateOf rate with
  | some i, some r =>
    if enable.toNat ≤ 1 ∧ stray.toNat ≤ 1 then
      { s with links := modifyAt s.links i fun l => { l with rx := l.rx.control r (enable = 1#16) (stray = 1#16) } }.respond
        doneResponse
    else s.respond (refusedResponse .badValue)
  | _, _ => s.respond (refusedResponse .badValue)

/-! ## Galleys (R126) -/

/-- The record that a library command names, if it is allocated and not DONE (R126). -/
def GalleyTable.live (t : GalleyTable) (index : Nat) : Option (Fin 32 × Galley) :=
  if h : index < 32 then
    match t.records[index] with
    | none => none
    | some r => if r.state = .done then none else some (⟨index, h⟩, r)
  else none

/-- KILL GALLEY (R123, R126): the galley, and its owning link's parser. -/
def actKillGalley (index : Word) (s : State) : State :=
  match s.table.live index.toNat with
  | none => s.respond (refusedResponse .noGalley)
  | some (g, r) => ((s.putBench ((s.bench r.link).killGalley g)).respond doneResponse).settle

/-- RESUME GALLEY (R124, R126). -/
def actResumeGalley (index : Word) (s : State) : State :=
  match s.table.live index.toNat with
  | none => s.respond (refusedResponse .noGalley)
  | some (g, r) =>
    if r.state = .failed then ({ s with table := s.table.resume g }.respond doneResponse).settle
    else s.respond (refusedResponse .notFailed)

/-- SET CLASS (R125, R126). -/
def actSetClass (index cls : Word) (s : State) : State :=
  match s.table.live index.toNat with
  | none => s.respond (refusedResponse .noGalley)
  | some (g, _) => ({ s with table := s.table.setClass g (min cls.toNat 3) }.respond doneResponse).settle

/-! ## Unit, status, attention (R157, R159, R172) -/

/-- CLEAR UNIT (R172). -/
def actClearUnit (s : State) : State :=
  if s.imaging.unit = .fault then
    ({ s with imaging :=
        if s.imaging.ready then s.imaging.sendCacheClear else { s.imaging with unit := .offline } }.respond
      doneResponse).settle
  else s.respond (refusedResponse .notFaulted)

/-- READ STATUS (R157). -/
def actReadStatus (sec : Word) (s : State) : State := s.respond (s.statusResponse sec)

/-- ACKNOWLEDGE ATTENTION (R159). -/
def actAcknowledgeAttention (causes : Word) (s : State) : State :=
  { s with attention := s.attention.acknowledge causes }.respond doneResponse

/-! ## Library reset (R161) -/

/-- A link after a library reset (R146): receiver, setting context, measure slot and transmitter. -/
def Link.afterLibraryReset (l : Link) : Link :=
  { rx := l.rx.afterLibraryReset, setting := idleSetting, measure := .empty, tx := l.tx.cut }

/-- The bus after a library reset: a hold that is granted stays granted, every other unit is ended, and the alternation
begins afresh (R151, R161). -/
def Bus.afterLibraryReset (b : Bus) : Bus :=
  { b with holder := b.holder.filter fun u => decide (u = .hold), last := none }

/-- LIBRARY RESET (R161, R23, R130, R146, R173). -/
def actLibraryReset (s : State) : State :=
  ({ s with slots := s.slots.map resetSlot
            copy := none
            table := emptyTable
            links := s.links.map Link.afterLibraryReset
            rotation := 0
            bus := s.bus.afterLibraryReset
            attention := noAttention
            imaging := s.imaging.afterLibraryReset }.respond doneResponse).settle

/-- A first word that names no command (R154). -/
def actBadCommand (s : State) : State := s.respond (refusedResponse .badCommand)

/-! ## The taking of blocks -/

/-- A whole block's command acts (R154). -/
def act : LibCommand → State → State
  | .installFont bank offset, s => actInstallFont bank offset s
  | .retireFont font, s => actRetireFont font s
  | .readStore bank offset count, s => actReadStore bank offset count s
  | .writeStore bank offset count words, s => actWriteStore bank offset count words s
  | .loadClassList count entries, s => actLoadClassList count entries s
  | .setLink link rate enable stray, s => actSetLink link rate enable stray s
  | .killGalley index, s => actKillGalley index s
  | .resumeGalley index, s => actResumeGalley index s
  | .setClass index cls, s => actSetClass index cls s
  | .clearUnit, s => actClearUnit s
  | .readStatus sec, s => actReadStatus sec s
  | .acknowledgeAttention causes, s => actAcknowledgeAttention causes s
  | .libraryReset, s => actLibraryReset s
  | .badCommand _, s => actBadCommand s

/-- A block with these words so far: its command acts if it is whole, otherwise the port is TAKING (R154). -/
def State.takeBlock (s : State) (words : List Word) : State :=
  if blockWhole words then act (readBlock words) s else s.gather words

/-- One word offered at the port (R154). -/
def State.takeWord (s : State) (w : Word) : State :=
  match s.port.phase with
  | .ready => s.takeBlock [w]
  | .taking words => s.takeBlock (words ++ [w])
  | .acting _ => s.keepOffered [w]
  | .responding _ => s.keepOffered [w]

/-- Words offered one after another. -/
def State.takeWords (s : State) : List Word → State
  | [] => s
  | w :: ws => (s.takeWord w).takeWords ws

/-- A library command offered whole: taken in READY, its words taken one by one in TAKING or when its operands do not
stand as its block gives them; in ACTING and RESPONDING they wait (R154, log 5). -/
def State.offer (s : State) (c : LibCommand) : State :=
  match s.port.phase with
  | .ready => if c.complete then act c s else s.takeWords c.block
  | .taking _ => s.takeWords c.block
  | .acting _ => s.keepOffered c.block
  | .responding _ => s.keepOffered c.block

/-- The last word of the response has been read: the port is READY, and the words that waited are answered and taken in
order, as far as the port takes them (R154, log 5). -/
def State.responseTaken (s : State) : State :=
  match s.port.phase with
  | .responding _ => s.portReady.takeWords s.port.offered
  | .ready => s
  | .taking _ => s
  | .acting _ => s

end Sys2Proof.Machine
end

