-- ==== Sys2Proof/Machine/Library.lean ====
section
/-! DEFINITION. The meanings of the library commands and of the library port's own events (R154; 11.3). What a command
does when its block is taken stands in Machine/Port.lean. -/

namespace Sys2Proof.Machine

/-- INSTALL_FONT (R5, R154). -/
def execInstallFont (bank : Word) (offset : BitVec 32) (s : State) : Host.Outcome State Fault Refusal :=
  .next (s.offer (.installFont bank offset))

/-- RETIRE_FONT (R11, R154). -/
def execRetireFont (font : Word) (s : State) : Host.Outcome State Fault Refusal := .next (s.offer (.retireFont font))

/-- READ_STORE (R155, R154). -/
def execReadStore (bank : Word) (offset : BitVec 32) (count : Word) (s : State) : Host.Outcome State Fault Refusal :=
  .next (s.offer (.readStore bank offset count))

/-- WRITE_STORE (R156, R154). -/
def execWriteStore (bank : Word) (offset : BitVec 32) (count : Word) (words : List Word) (s : State) :
    Host.Outcome State Fault Refusal :=
  .next (s.offer (.writeStore bank offset count words))

/-- LOAD_CLASS_LIST (R32, R154). -/
def execLoadClassList (count : Word) (entries : List ClassWords) (s : State) : Host.Outcome State Fault Refusal :=
  .next (s.offer (.loadClassList count entries))

/-- SET_LINK (R140, R154). -/
def execSetLink (link rate enable stray : Word) (s : State) : Host.Outcome State Fault Refusal :=
  .next (s.offer (.setLink link rate enable stray))

/-- KILL_GALLEY (R126, R154). -/
def execKillGalley (index : Word) (s : State) : Host.Outcome State Fault Refusal := .next (s.offer (.killGalley index))

/-- RESUME_GALLEY (R126, R154). -/
def execResumeGalley (index : Word) (s : State) : Host.Outcome State Fault Refusal :=
  .next (s.offer (.resumeGalley index))

/-- SET_CLASS (R126, R154). -/
def execSetClass (index cls : Word) (s : State) : Host.Outcome State Fault Refusal :=
  .next (s.offer (.setClass index cls))

/-- CLEAR_UNIT (R172, R154). -/
def execClearUnit (s : State) : Host.Outcome State Fault Refusal := .next (s.offer .clearUnit)

/-- READ_STATUS (R157, R154). -/
def execReadStatus (sec : Word) (s : State) : Host.Outcome State Fault Refusal := .next (s.offer (.readStatus sec))

/-- ACKNOWLEDGE_ATTENTION (R159, R154). -/
def execAcknowledgeAttention (causes : Word) (s : State) : Host.Outcome State Fault Refusal :=
  .next (s.offer (.acknowledgeAttention causes))

/-- LIBRARY_RESET (R161, R154). -/
def execLibraryReset (s : State) : Host.Outcome State Fault Refusal := .next (s.offer .libraryReset)

/-- BAD_COMMAND (R154). -/
def execBadCommand (first : Word) (s : State) : Host.Outcome State Fault Refusal := .next (s.offer (.badCommand first))

/-- COMMAND_BLOCK_WORD (R154). -/
def execCommandBlockWord (word : Word) (s : State) : Host.Outcome State Fault Refusal := .next (s.takeWord word)

/-- RESPONSE_READ (R154, log 28). -/
def execResponseRead (s : State) : Host.Outcome State Fault Refusal := .next s.responseTaken

end Sys2Proof.Machine
end

