-- ==== Sys2Proof/Machine/LinkEvents.lean ====
section
/-! DEFINITION. The events of the composition links and the Setter's turns (chapters 3 to 8; R58, R117, R132 to R145). -/

namespace Sys2Proof.Machine

/-- One link changed by a function. -/
def State.onLink (s : State) (i : Fin 4) (f : Link → Link) : State := { s with links := modifyAt s.links i f }

/-! ## Reception (R132 to R139) -/

/-- A frame received on a link (R132). -/
def State.receiveByte (s : State) (i : Fin 4) (b : Byte) (parityError framingError : Bool) : State :=
  s.onLink i fun l => { l with rx := l.rx.byte b parityError framingError }

/-- A link's line returned to mark (R132, R139). -/
def State.returnToMark (s : State) (i : Fin 4) : State := s.onLink i fun l => { l with rx := l.rx.toMark }

/-- A break on a link (R139, R58). -/
def State.takeBreak (s : State) (i : Fin 4) : State :=
  if s.links[i].rx.breakTaken then (s.putBench (s.bench i).breakLink).settle else s

/-- BYTE_RECEIVED (R132 to R138). -/
def execByteReceived (link : Fin 4) (byte : Byte) (parityError framingError : Bool) (s : State) :
    Host.Outcome State Fault Refusal :=
  .next (s.receiveByte link byte parityError framingError)

/-- LINE_RETURN_TO_MARK (R132). -/
def execLineReturnToMark (link : Fin 4) (s : State) : Host.Outcome State Fault Refusal := .next (s.returnToMark link)

/-- BREAK (R139). -/
def execBreakSignal (link : Fin 4) (s : State) : Host.Outcome State Fault Refusal := .next (s.takeBreak link)

/-! ## Transmission (R143 to R145, R128) -/

/-- FRONT_END_READY_ON (R143, R144). -/
def execFrontEndReadyOn (link : Fin 4) (s : State) : Host.Outcome State Fault Refusal :=
  .next (s.onLink link fun l => { l with tx := l.tx.readyOn }).settle

/-- FRONT_END_READY_OFF (R144). -/
def execFrontEndReadyOff (link : Fin 4) (s : State) : Host.Outcome State Fault Refusal :=
  .next (s.onLink link fun l => { l with tx := l.tx.readyOff })

/-- A DONE record freed when its final report has been sent: its slots' counts fall, and it leaves the allocation order
(R128, R18). -/
def State.freeRecord (s : State) (g : Fin 32) : State :=
  match s.table.records[g] with
  | none => s
  | some r =>
    { s.countDownAll r.useSet with
      table := { s.table with records := s.table.records.set g none, order := s.table.order.filter (· ≠ g) } }

/-- The transmitter idle after its last byte (R144, R145). -/
def Transmitter.finish (tx : Transmitter) : Transmitter :=
  { tx with state := .idle, shift := none, buffer := [], reply := none }

/-- What a complete reply brings about (R144, R128). -/
def State.completeReply (s : State) (i : Fin 4) : State :=
  let tag := s.links[i].tx.reply
  let s := s.onLink i fun l => { l with tx := l.tx.finish }
  match tag with
  | none => s
  | some .result => s.onLink i fun l => { l with measure := l.measure.sent }
  | some (.report _ false) => s
  | some (.report g true) => s.freeRecord g

/-- The byte in a link's shift register has left it (R144). -/
def State.byteSent (s : State) (i : Fin 4) : State :=
  if s.links[i].tx.shift = none then s
  else
    match s.links[i].tx.buffer with
    | _ :: _ => s.onLink i fun l => { l with tx := l.tx.nextByte }
    | [] => (s.completeReply i).settle

/-- TRANSMIT_BYTE_SENT (R144). -/
def execTransmitByteSent (link : Fin 4) (s : State) : Host.Outcome State Fault Refusal := .next (s.byteSent link)

/-! ## The Setter's rotation (R117) -/

/-- The links in the cyclic order from one on (R117). -/
def linksFrom (i : Fin 4) : List (Fin 4) := [i, i + 1, i + 2, i + 3]

/-- The first link of a list that is not passed over, with the Setter's work there (R117). -/
def State.firstTurn (s : State) : List (Fin 4) → Option (Fin 4 × Bench)
  | [] => none
  | i :: rest =>
    match (s.bench i).turn with
    | some b => some (i, b)
    | none => s.firstTurn rest

/-- A turn of the Setter; the rotation stands after the link served (R117, log 8). -/
def State.turn (s : State) : State :=
  match s.firstTurn (linksFrom s.rotation) with
  | none => s
  | some (i, b) => { s.putBench b with rotation := i + 1 }.settle

/-- SETTER_TURN (R117). -/
def execSetterTurn (s : State) : Host.Outcome State Fault Refusal := .next s.turn

end Sys2Proof.Machine
end

