-- ==== Sys2Proof/Machine/Store.lean ====
section
/-! DEFINITION. The events of the font store and its bus: the units of the copy, the fetcher and the store commands, the
station's hold, and presence changes (R6, R147 to R156, R168, R169, R20). -/

namespace Sys2Proof.Machine

/-! ## The install copy's unit (R6, R151) -/

/-- One read of the copy made: the unit ends and the next user has the bus (R6, R151). A copy that does not hold the
bus waits. -/
def State.copyStep (s : State) : State :=
  match s.copy with
  | none => s
  | some job => if s.bus.holder = some .copy then (s.endUnit.copyRead job).settle else s

/-- INSTALL_COPY_READ (R6 to R9). -/
def execInstallCopyRead (s : State) : Host.Outcome State Fault Refusal := .next s.copyStep

/-! ## Store commands (R155, R156) -/

/-- The words of a store command's reading, in order of offset, as the station may see them (R155, R148). -/
def readRun (p : BankPosition) (offset count : Nat) : List Word :=
  (List.range count).map fun k => stationReadWord p (offset + k)

/-- The first check of a write that fails, if one does (R156). -/
def writeCheck (slots : Vector Slot 8) (banks : Vector BankPosition 8) (position : Fin 8) : Option Reason :=
  match banks[position].kind with
  | .absent => some .absent
  | .cartridge => some .readOnly
  | .board => if guarded slots position then some .guarded else none

/-- Words stored at a position (R156). -/
def State.storeAt (s : State) (position : Fin 8) (offset : Nat) (words : List Word) : State :=
  { s with banks := modifyAt s.banks position fun p => storeWords p offset words }

/-- READ STORE's words have been read: DONE with the count and the words (R155). -/
def State.readDone (s : State) : State :=
  match s.port.phase, s.bus.holder with
  | .acting (.read p offset count), some .store =>
    (s.endUnit.respond (doneResponse ++ listWords (readRun s.banks[p] offset count))).settle
  | _, _ => s

/-- WRITE STORE's words have been stored, or a check refuses them (R156; that the checks are made in this event and not at
the grant of the bus, log 34). -/
def State.writeDone (s : State) : State :=
  match s.port.phase, s.bus.holder with
  | .acting (.write p offset words), some .store =>
    match writeCheck s.slots s.banks p with
    | some reason => (s.endUnit.respond (refusedResponse reason)).settle
    | none => ((s.storeAt p offset words).endUnit.respond doneResponse).settle
  | _, _ => s

/-- READ_STORE_COMPLETE (R155). -/
def execReadStoreComplete (s : State) : Host.Outcome State Fault Refusal := .next s.readDone

/-- WRITE_STORE_COMPLETE (R156). -/
def execWriteStoreComplete (s : State) : Host.Outcome State Fault Refusal := .next s.writeDone

/-! ## The hold (R152, R153) -/

/-- The HOLD REQUEST line set. -/
def State.setHoldRequest (s : State) (b : Bool) : State := { s with bus := { s.bus with holdRequest := b } }

/-- HOLD_REQUEST (R152). -/
def execHoldRequest (s : State) : Host.Outcome State Fault Refusal := .next (s.setHoldRequest true).settle

/-- HOLD_REQUEST_DROP (R152). -/
def execHoldRequestDrop (s : State) : Host.Outcome State Fault Refusal := .next (s.setHoldRequest false).settle

/-- A read by the station under a granted hold; without the grant the station has no bus to read (R153, log 4). -/
def State.stationReads (s : State) (position : Fin 8) (offset : Nat) : State :=
  if s.bus.holder = some .hold then { s with stationRead := some (stationReadWord s.banks[position] offset) } else s

/-- A write by the station under a granted hold: the guard is tested first, then the kind (R153). -/
def State.stationWrites (s : State) (position : Fin 8) (offset : Nat) (word : Word) : State :=
  if s.bus.holder = some .hold then
    if guarded s.slots position = true ∨ s.banks[position].kind = .cartridge then
      { s with attention := { s.attention with guardViolation := some position } }
    else s.storeAt position offset [word]
  else s

/-- HOLD_READ (R153). -/
def execHoldRead (position : Fin 8) (offset : BitVec 18) (s : State) : Host.Outcome State Fault Refusal :=
  .next (s.stationReads position offset.toNat)

/-- HOLD_WRITE (R153). -/
def execHoldWrite (position : Fin 8) (offset : BitVec 18) (word : Word) (s : State) :
    Host.Outcome State Fault Refusal :=
  .next (s.stationWrites position offset.toNat word)

/-! ## Presence changes (R150, R20, R169) -/

/-- The contents of a socket. -/
def BankPosition.socket (p : BankPosition) : Socket → Option Memory
  | .board => p.board
  | .cartridge => p.cartridge

/-- A position with a socket filled or emptied. -/
def BankPosition.setSocket (p : BankPosition) (socket : Socket) (contents : Option Memory) : BankPosition :=
  match socket with
  | .board => { p with board := contents }
  | .cartridge => { p with cartridge := contents }

/-- The event is a change of the sensed socket (R150); otherwise it is none (log 4). -/
def socketChanges (p : BankPosition) (socket : Socket) (contents : Option (List (Nat × Word))) : Bool :=
  (p.socket socket).isSome != contents.isSome

/-- The position's attributes sensed afresh with the socket as it now stands (R147, R148, R150). -/
def State.senseSocket (s : State) (position : Fin 8) (socket : Socket) (contents : Option (List (Nat × Word))) : State :=
  { s with banks := modifyAt s.banks position fun p => sensePosition (p.setSocket socket (contents.map memoryOf)) }

/-- What a WRITE STORE that is cut short has stored: nothing if a check refuses it, else its first words, fewer than all
of them, how many is a free value (R156, log 10). -/
def State.storePart (s : State) (position : Fin 8) (offset : Nat) (words : List Word) : State :=
  let moved := words.take (min (Config.wordsMoved s.free) (words.length - 1))
  let stored := if (writeCheck s.slots s.banks position).isNone then s.storeAt position offset moved else s
  { stored with free := s.free + 1 }

/-- A store command that holds the bus on the position ends: it is answered BANK CHANGED, and a write keeps the words
already stored (R150, R156, log 10). -/
def State.cutStore (s : State) (position : Fin 8) : State :=
  match s.port.phase, s.bus.holder with
  | .acting (.read p _ _), some .store =>
    if p = position then s.endUnit.respond (refusedResponse .bankChanged) else s
  | .acting (.write p offset words), some .store =>
    if p = position then (s.storePart p offset words).endUnit.respond (refusedResponse .bankChanged) else s
  | _, _ => s

/-- A WRITE STORE that holds the bus when the power fails keeps the words already stored in board RAM (R23, R156,
log 10). -/
def State.powerCutStore (s : State) : State :=
  match s.port.phase, s.bus.holder with
  | .acting (.write p offset words), some .store => s.storePart p offset words
  | _, _ => s

/-- The attention causes of a presence change (R20, R150, R158; a further change at a RETIRING slot's position sets IMAGE
LOST again, log 31). -/
def State.noteChange (s : State) (position : Fin 8) : State :=
  { s with attention :=
      { s.attention with
        cartridgeChange := addPosition s.attention.cartridgeChange position
        imageLost := if imagesAt s.slots position then addPosition s.attention.imageLost position
          else s.attention.imageLost } }

/-- An outline fetch from the position is cut off or leaves its wait, and 0 words are delivered (R169). -/
def State.cutFetch (s : State) (position : Fin 8) : State :=
  match s.imaging.fetch with
  | none => s
  | some f => if f.bank = position.val then s.putFilm s.film.deliverBlank else s

/-- A presence change (R150). -/
def State.changePresence (s : State) (position : Fin 8) (socket : Socket) (contents : Option (List (Nat × Word))) :
    State :=
  if socketChanges s.banks[position] socket contents then
    (((((s.cutStore position).senseSocket position socket contents).noteChange position).loseSlots position
      slotIds).cutFetch position).settle
  else s

/-- PRESENCE_CHANGE (R150). -/
def execPresenceChange (position : Fin 8) (socket : Socket) (contents : Option (List (Nat × Word))) (s : State) :
    Host.Outcome State Fault Refusal :=
  .next (s.changePresence position socket contents)

/-! ## The outline fetcher's unit (R168) -/

/-- The words of an outline read from its bank (R168, R148). -/
def State.outlineWords (s : State) (f : Fetch) : List Word :=
  match bankNumber f.bank with
  | none => []
  | some b => (List.range f.count).map fun k => trueRead s.banks[b] (f.offset + k)

/-- The last word of the outline has been read: it is delivered and the bus released (R168, R151). -/
def State.fetchDone (s : State) : State :=
  match s.imaging.fetch with
  | none => s
  | some f =>
    if s.bus.holder = some .fetcher then
      { s.endUnit with imaging := s.imaging.deliver (s.outlineWords f) }.settle
    else s

/-- OUTLINE_FETCH_DONE (R168). -/
def execOutlineFetchDone (s : State) : Host.Outcome State Fault Refusal := .next s.fetchDone

end Sys2Proof.Machine
end

