-- ==== Sys2Proof/Machine/Reset.lean ====
section
/-! DEFINITION. Power-on reset (R160, with R23, R34, R36, R130, R145, R146, R163). -/

namespace Sys2Proof.Machine

/-- A link after power-on reset; its front end's ready line is an outside line and stands as it stands (R146, log 3). -/
def Link.afterPowerOn (l : Link) : Link := { resetLink with tx := { resetLink.tx with feReady := l.tx.feReady } }

/-- The Exposure Controller after power-on reset: OFFLINE, or SENDING the CACHE CLEAR if the unit's ready line is on
(R163, R160). -/
def Imaging.afterPowerOn (m : Imaging) : Imaging :=
  if m.ready then { offlineImaging with ready := true }.sendCacheClear else offlineImaging

/-- Power-on reset. What stays is outside the reset: the sockets with their contents, sensed afresh, the outside lines
(log 3), the free-value counter and the queue (log 26, log 6). A WRITE STORE that held the bus has stored some of its
words (log 10). -/
def State.powerOn (s : State) : State :=
  let s := s.powerCutStore
  { State.reset with
    links := s.links.map Link.afterPowerOn
    banks := s.banks.map sensePosition
    bus := { State.reset.bus with holdRequest := s.bus.holdRequest }
    imaging := s.imaging.afterPowerOn
    free := s.free
    pending := s.pending }.settle

/-- POWER_ON_RESET (R160). -/
def execPowerOnReset (s : State) : Host.Outcome State Fault Refusal := .next s.powerOn

end Sys2Proof.Machine
end

