-- ==== Sys2Proof/Machine/UnitEvents.lean ====
section
/-! DEFINITION. The events of the imaging port (chapter 10; R162 to R173, R175). -/

namespace Sys2Proof.Machine

/-- The Exposure Controller's part changed by a function. -/
def State.onImaging (s : State) (f : Imaging → Imaging) : State := { s with imaging := f s.imaging }

/-- An ACK: ignored when no record is outstanding and before the record's last word has been sent; a void record's is
ignored but for the CACHE CLEAR it makes way for (R162, R163, R173, log 15). -/
def State.ackUnit (s : State) : State :=
  match s.imaging.out with
  | none => s
  | some o =>
    if o.record.sentWhole then
      if o.void then (s.onImaging Imaging.voidEnded).settle
      else (s.putFilm (s.film.acked o.record)).settle
    else s

/-- UNIT_ACK (R162, R164 to R166, R170, R121). -/
def execUnitAck (s : State) : Host.Outcome State Fault Refusal := .next s.ackUnit

/-- The outstanding record concluded by a FAULT answer (of a kind) or by its timer (none): a fault, or the end of a void
record (R171, R173). Without an outstanding record there is nothing to conclude (R162). -/
def State.concludeRecord (s : State) (kind : Option FaultKind) : State :=
  match s.imaging.out with
  | none => s
  | some o => if o.void then (s.onImaging Imaging.voidEnded).settle else (s.faultUnit kind).settle

/-- UNIT_FAULT (R171). -/
def execUnitFault (kind : FaultAnswer) (s : State) : Host.Outcome State Fault Refusal :=
  .next (s.concludeRecord (some (faultKindOf kind)))

/-- RECORD_TIMEOUT (R171). -/
def execRecordTimeout (s : State) : Host.Outcome State Fault Refusal := .next (s.concludeRecord none)

/-- An answer word read by its coding: ACK, one of the three FAULT words, or a word that is ignored (R175; 11.4). -/
def State.answerWord (s : State) (word : Word) : State :=
  match word.toNat with
  | 0x0000 => s.ackUnit
  | 0x0101 => s.concludeRecord (some .filmOut)
  | 0x0102 => s.concludeRecord (some .jam)
  | 0x0103 => s.concludeRecord (some .lamp)
  | _ => s

/-- UNIT_ANSWER_INVALID (R175). -/
def execUnitAnswerInvalid (word : Word) (s : State) : Host.Outcome State Fault Refusal := .next (s.answerWord word)

/-- The ready line's going on as the Exposure Controller takes it in OFFLINE (R163). -/
def Imaging.comeOn (m : Imaging) : Imaging :=
  let m := { m with ready := true }
  if m.out.isSome then { m with unit := .sending } else m.sendCacheClear

/-- The unit's ready line goes on (R163). -/
def State.readyOnUnit (s : State) : State :=
  if s.imaging.ready then s
  else if s.imaging.unit = .offline then (s.onImaging Imaging.comeOn).settle
  else s.onImaging fun m => { m with ready := true }

/-- UNIT_READY_ON (R163). -/
def execUnitReadyOn (s : State) : Host.Outcome State Fault Refusal := .next s.readyOnUnit

/-- A void record is outstanding (R173). -/
def Imaging.voidOut (m : Imaging) : Bool :=
  match m.out with
  | some o => o.void
  | none => false

/-- The unit's ready line goes off: a fault of kind NOT READY in every state but OFFLINE and SENDING with a void record
(R163, R171, R173). -/
def State.readyOffUnit (s : State) : State :=
  if s.imaging.ready then
    let t := s.onImaging fun m => { m with ready := false }
    if t.imaging.unit = .offline then t
    else if t.imaging.voidOut then (t.onImaging fun m => { m with unit := .offline }).settle
    else (t.faultUnit (some .notReady)).settle
  else s

/-- UNIT_READY_OFF (R163, R171, R173). -/
def execUnitReadyOff (s : State) : Host.Outcome State Fault Refusal := .next s.readyOffUnit

end Sys2Proof.Machine
end

