-- ==== Sys2Proof/Machine/Dispatch.lean ====
section
/-! DEFINITION. The dispatch: one arm for each command, each a call of its meaning. -/

namespace Sys2Proof.Machine

def exec (i : Instr) (s : State) : Host.Outcome State Fault Refusal :=
  match i with
  | .powerOnReset => Sys2Proof.Machine.execPowerOnReset s
  | .installFont bank offset => Sys2Proof.Machine.execInstallFont bank offset s
  | .retireFont font => Sys2Proof.Machine.execRetireFont font s
  | .readStore bank offset count => Sys2Proof.Machine.execReadStore bank offset count s
  | .writeStore bank offset count words => Sys2Proof.Machine.execWriteStore bank offset count words s
  | .loadClassList count entries => Sys2Proof.Machine.execLoadClassList count entries s
  | .setLink link rate enable stray => Sys2Proof.Machine.execSetLink link rate enable stray s
  | .killGalley index => Sys2Proof.Machine.execKillGalley index s
  | .resumeGalley index => Sys2Proof.Machine.execResumeGalley index s
  | .setClass index cls => Sys2Proof.Machine.execSetClass index cls s
  | .clearUnit => Sys2Proof.Machine.execClearUnit s
  | .readStatus sec => Sys2Proof.Machine.execReadStatus sec s
  | .acknowledgeAttention causes => Sys2Proof.Machine.execAcknowledgeAttention causes s
  | .libraryReset => Sys2Proof.Machine.execLibraryReset s
  | .badCommand first => Sys2Proof.Machine.execBadCommand first s
  | .commandBlockWord word => Sys2Proof.Machine.execCommandBlockWord word s
  | .responseRead => Sys2Proof.Machine.execResponseRead s
  | .readStoreComplete => Sys2Proof.Machine.execReadStoreComplete s
  | .writeStoreComplete => Sys2Proof.Machine.execWriteStoreComplete s
  | .installCopyRead => Sys2Proof.Machine.execInstallCopyRead s
  | .holdRequest => Sys2Proof.Machine.execHoldRequest s
  | .holdRequestDrop => Sys2Proof.Machine.execHoldRequestDrop s
  | .holdRead position offset => Sys2Proof.Machine.execHoldRead position offset s
  | .holdWrite position offset word => Sys2Proof.Machine.execHoldWrite position offset word s
  | .presenceChange position socket contents => Sys2Proof.Machine.execPresenceChange position socket contents s
  | .byteReceived link byte parityError framingError => Sys2Proof.Machine.execByteReceived link byte parityError framingError s
  | .lineReturnToMark link => Sys2Proof.Machine.execLineReturnToMark link s
  | .breakSignal link => Sys2Proof.Machine.execBreakSignal link s
  | .frontEndReadyOn link => Sys2Proof.Machine.execFrontEndReadyOn link s
  | .frontEndReadyOff link => Sys2Proof.Machine.execFrontEndReadyOff link s
  | .transmitByteSent link => Sys2Proof.Machine.execTransmitByteSent link s
  | .setterTurn => Sys2Proof.Machine.execSetterTurn s
  | .unitAck => Sys2Proof.Machine.execUnitAck s
  | .unitFault kind => Sys2Proof.Machine.execUnitFault kind s
  | .recordTimeout => Sys2Proof.Machine.execRecordTimeout s
  | .unitAnswerInvalid word => Sys2Proof.Machine.execUnitAnswerInvalid word s
  | .unitReadyOn => Sys2Proof.Machine.execUnitReadyOn s
  | .unitReadyOff => Sys2Proof.Machine.execUnitReadyOff s
  | .outlineFetchDone => Sys2Proof.Machine.execOutlineFetchDone s

end Sys2Proof.Machine
end

