-- ==== Sys2Proof/Safety.lean ====
section
/-! DEFINITION. What counts as a safe state of the TC-2: the invariants that the manual states of its stores, tables,
links and ports, in the terms the statements use. -/

namespace Sys2Proof.Machine

/-! ## Runs -/

/-- Commands taken one after another, stopping at the first that answers no next state. -/
def execAll : List Instr → State → Host.Outcome State Fault Refusal
  | [], s => .next s
  | c :: rest, s =>
    match exec c s with
    | .next t => execAll rest t
    | .fault r => .fault r
    | .refused r => .refused r

/-- The row of the table that offers a command block whole (R154). -/
def LibCommand.instr : LibCommand → Instr
  | .installFont bank offset => .installFont bank offset
  | .retireFont font => .retireFont font
  | .readStore bank offset count => .readStore bank offset count
  | .writeStore bank offset count words => .writeStore bank offset count words
  | .loadClassList count entries => .loadClassList count entries
  | .setLink link rate enable stray => .setLink link rate enable stray
  | .killGalley index => .killGalley index
  | .resumeGalley index => .resumeGalley index
  | .setClass index cls => .setClass index cls
  | .clearUnit => .clearUnit
  | .readStatus sec => .readStatus sec
  | .acknowledgeAttention causes => .acknowledgeAttention causes
  | .libraryReset => .libraryReset
  | .badCommand first => .badCommand first

/-- The commands that offer words at the library port (R154). -/
def offersWords : Instr → Bool
  | .installFont _ _ => true
  | .retireFont _ => true
  | .readStore _ _ _ => true
  | .writeStore _ _ _ _ => true
  | .loadClassList _ _ => true
  | .setLink _ _ _ _ => true
  | .killGalley _ => true
  | .resumeGalley _ => true
  | .setClass _ _ => true
  | .clearUnit => true
  | .readStatus _ => true
  | .acknowledgeAttention _ => true
  | .libraryReset => true
  | .badCommand _ => true
  | .commandBlockWord _ => true
  | .powerOnReset => false
  | .responseRead => false
  | .readStoreComplete => false
  | .writeStoreComplete => false
  | .installCopyRead => false
  | .holdRequest => false
  | .holdRequestDrop => false
  | .holdRead _ _ => false
  | .holdWrite _ _ _ => false
  | .presenceChange _ _ _ => false
  | .byteReceived _ _ _ _ => false
  | .lineReturnToMark _ => false
  | .breakSignal _ => false
  | .frontEndReadyOn _ => false
  | .frontEndReadyOff _ => false
  | .transmitByteSent _ => false
  | .setterTurn => false
  | .unitAck => false
  | .unitFault _ => false
  | .recordTimeout => false
  | .unitAnswerInvalid _ => false
  | .unitReadyOn => false
  | .unitReadyOff => false
  | .outlineFetchDone => false

/-- The commands that may bring words to be taken at the library port: those that offer words, and RESPONSE_READ while
words wait for the port to be READY (R154, log 5). -/
def bringsWords (c : Instr) (s : State) : Bool :=
  offersWords c || (decide (c = .responseRead) && !s.port.offered.isEmpty)

/-- Every attention cause that was set is set (R158). -/
structure CausesKept (a b : Attention) : Prop where
  installDone : a.installDone.isSome = true → b.installDone.isSome = true
  installFailed : a.installFailed.isSome = true → b.installFailed.isSome = true
  unitFault : a.unitFault.isSome = true → b.unitFault.isSome = true
  unitTimeout : a.unitTimeout = true → b.unitTimeout = true
  guardViolation : a.guardViolation.isSome = true → b.guardViolation.isSome = true
  cartridgeChange : a.cartridgeChange.isSome = true → b.cartridgeChange.isSome = true
  imageLost : a.imageLost.isSome = true → b.imageLost.isSome = true
  storeStalled : a.storeStalled = true → b.storeStalled = true

/-! ## Font store (R147, R156) -/

/-- The contents of a socket, if there are any, are in canonical form (log 2). -/
def contentsCanonical : Option Memory → Prop
  | none => True
  | some m => Memory.wf m

/-- A write that waits for the bus lies within its bank (R156). -/
def writeInBank : PortPhase → Prop
  | .acting (.write _ offset words) => offset + words.length ≤ Config.bankWords
  | _ => True

/-- Every board and cartridge holds its words in the one canonical form. -/
structure StoreCanonical (s : State) : Prop where
  contents : ∀ p : Fin 8, contentsCanonical s.banks[p].board ∧ contentsCanonical s.banks[p].cartridge
  write : writeInBank s.port.phase

/-! ## Font Directory (R1, R5, R9, R12, R18) -/

/-- A LOADING slot is the slot of the one copy in progress; no two RESIDENT slots have one font number; an EMPTY slot
has the record of R1 (R1, R5, R9). -/
structure DirectorySound (s : State) : Prop where
  loading : ∀ i : Fin 8, s.slots[i].state = .loading ↔ ∃ job, s.copy = some job ∧ job.slot = i
  unique : ∀ i j : Fin 8, s.slots[i].state = .resident → s.slots[j].state = .resident →
    s.slots[i].fontNumber = s.slots[j].fontNumber → i = j
  empty : ∀ i : Fin 8, s.slots[i].state = .empty → s.slots[i] = emptySlotRecord

/-- A read of the install copy fails with a reason: the copy ends, the slot is EMPTY, INSTALL FAILED is set (R8). -/
def CopyFails (s t : State) (job : CopyJob) (reason : InstallReason) : Prop :=
  t.copy = none ∧ t.slots = s.slots.set job.slot emptySlotRecord ∧ t.attention.installFailed = some reason ∧
    t.banks = s.banks ∧ t.classes = s.classes ∧ t.port = s.port

/-- A read of the install copy goes on with the slot's tables as they now stand (R6). -/
def CopyGoesOn (s t : State) (job : CopyJob) (x : Slot) : Prop :=
  t.copy = some job ∧ t.slots = s.slots.set job.slot x ∧ t.attention.installFailed = s.attention.installFailed ∧
    t.attention.installDone = s.attention.installDone ∧ t.banks = s.banks ∧ t.classes = s.classes ∧ t.port = s.port

/-- Where the parts of an image begin: width table 0, code map 1, kern list 2, ligature list 3, mark table 4, outline
directory 5 (11.5). -/
def partStart (h : List Word) : Nat → Nat
  | 0 => 9
  | 1 => 9 + headerWord h 1
  | 2 => 9 + headerWord h 1 + 5 * headerWord h 2
  | 3 => 9 + headerWord h 1 + 5 * headerWord h 2 + 3 * headerWord h 3
  | 4 => 9 + headerWord h 1 + 5 * headerWord h 2 + 3 * headerWord h 3 + 4 * headerWord h 4
  | _ => 9 + headerWord h 1 + 5 * headerWord h 2 + 3 * headerWord h 3 + 4 * headerWord h 4 + 2 * headerWord h 5

/-- The parts of an image before a part have all been read (11.5). -/
structure FilledBefore (h : List Word) (x : Slot) (part : Nat) : Prop where
  widths : 0 < part → x.widths.length = headerWord h 1
  codeMap : 1 < part → x.codeMap.length = headerWord h 2
  kerns : 2 < part → x.kerns.length = headerWord h 3
  ligatures : 3 < part → x.ligatures.length = headerWord h 4
  marks : 4 < part → x.marks.length = headerWord h 5

/-- What the reading of the next table entry of an image gives: the slot with the entry, or the reason of the check it
fails, as R7 lists them in checks 4 and 5 (R6; 11.5). w n is the n-th word of the image. -/
inductive EntryRead (h : List Word) (x : Slot) (w : Nat → Word) : Except InstallReason Slot → Prop
  | width (a : Nat) : x.widths.length < headerWord h 1 → a = partStart h 0 + x.widths.length → (w a).toNat ≤ 216 →
      EntryRead h x w (.ok { x with widths := x.widths ++ [(w a).toNat] })
  | widthFails (a : Nat) : x.widths.length < headerWord h 1 → a = partStart h 0 + x.widths.length →
      216 < (w a).toNat → EntryRead h x w (.error .badHeader)
  | codeMap (a : Nat) : FilledBefore h x 1 → x.codeMap.length < headerWord h 2 →
      a = partStart h 1 + 5 * x.codeMap.length →
      (w (a + 1)).toNat < headerWord h 1 ∧ (w (a + 2)).toNat < headerWord h 1 ∧ (w (a + 3)).toNat < headerWord h 1 ∧
        (w (a + 4)).toNat < headerWord h 1 →
      EntryRead h x w (.ok { x with codeMap := x.codeMap ++
        [{ code := w a, isolated := (w (a + 1)).toNat, initialForm := (w (a + 2)).toNat, medial := (w (a + 3)).toNat
           finalForm := (w (a + 4)).toNat }] })
  | codeMapFails (a : Nat) : FilledBefore h x 1 → x.codeMap.length < headerWord h 2 →
      a = partStart h 1 + 5 * x.codeMap.length →
      headerWord h 1 ≤ (w (a + 1)).toNat ∨ headerWord h 1 ≤ (w (a + 2)).toNat ∨ headerWord h 1 ≤ (w (a + 3)).toNat ∨
        headerWord h 1 ≤ (w (a + 4)).toNat →
      EntryRead h x w (.error .badHeader)
  | kern (a : Nat) : FilledBefore h x 2 → x.kerns.length < headerWord h 3 → a = partStart h 2 + 3 * x.kerns.length →
      glyphNumberOk (headerWord h 1) (w a).toNat = true → glyphNumberOk (headerWord h 1) (w (a + 1)).toNat = true →
      -36 ≤ (w (a + 2)).toInt → (w (a + 2)).toInt ≤ 36 →
      EntryRead h x w (.ok { x with kerns := x.kerns ++
        [{ left := (w a).toNat, right := (w (a + 1)).toNat, value := (w (a + 2)).toInt }] })
  | kernFails (a : Nat) : FilledBefore h x 2 → x.kerns.length < headerWord h 3 →
      a = partStart h 2 + 3 * x.kerns.length →
      glyphNumberOk (headerWord h 1) (w a).toNat = false ∨ glyphNumberOk (headerWord h 1) (w (a + 1)).toNat = false ∨
        (w (a + 2)).toInt < -36 ∨ 36 < (w (a + 2)).toInt →
      EntryRead h x w (.error .badHeader)
  | ligature (a : Nat) : FilledBefore h x 3 → x.ligatures.length < headerWord h 4 →
      a = partStart h 3 + 4 * x.ligatures.length →
      glyphNumberOk (headerWord h 1) (w a).toNat = true → glyphNumberOk (headerWord h 1) (w (a + 1)).toNat = true →
      (w (a + 2)).toNat < headerWord h 1 → glyphNumberOk (headerWord h 1) (w (a + 3)).toNat = true →
      EntryRead h x w (.ok { x with ligatures := x.ligatures ++
        [{ first := (w a).toNat, second := (w (a + 1)).toNat, third := (w (a + 2)).toNat
           result := (w (a + 3)).toNat }] })
  | ligatureFails (a : Nat) : FilledBefore h x 3 → x.ligatures.length < headerWord h 4 →
      a = partStart h 3 + 4 * x.ligatures.length →
      glyphNumberOk (headerWord h 1) (w a).toNat = false ∨ glyphNumberOk (headerWord h 1) (w (a + 1)).toNat = false ∨
        headerWord h 1 ≤ (w (a + 2)).toNat ∨ glyphNumberOk (headerWord h 1) (w (a + 3)).toNat = false →
      EntryRead h x w (.error .badHeader)
  | mark (a : Nat) : FilledBefore h x 4 → x.marks.length < headerWord h 5 → a = partStart h 4 + 2 * x.marks.length →
      glyphNumberOk (headerWord h 1) (w a).toNat = true → -72 ≤ (w (a + 1)).toInt → (w (a + 1)).toInt ≤ 72 →
      EntryRead h x w (.ok { x with marks := x.marks ++ [{ glyph := (w a).toNat, raise := (w (a + 1)).toInt }] })
  | markFails (a : Nat) : FilledBefore h x 4 → x.marks.length < headerWord h 5 →
      a = partStart h 4 + 2 * x.marks.length →
      glyphNumberOk (headerWord h 1) (w a).toNat = false ∨ (w (a + 1)).toInt < -72 ∨ 72 < (w (a + 1)).toInt →
      EntryRead h x w (.error .badHeader)
  | outline (a : Nat) : FilledBefore h x 5 → x.outlines.length < headerWord h 1 →
      a = partStart h 5 + 3 * x.outlines.length → (w (a + 2)).toNat ≤ 1024 →
      (w a).toNat * 65536 + (w (a + 1)).toNat + (w (a + 2)).toNat ≤ 262144 →
      EntryRead h x w (.ok { x with outlines := x.outlines ++
        [{ offset := (w a).toNat * 65536 + (w (a + 1)).toNat, count := (w (a + 2)).toNat }] })
  | outlineFails (a : Nat) : FilledBefore h x 5 → x.outlines.length < headerWord h 1 →
      a = partStart h 5 + 3 * x.outlines.length → 1024 < (w (a + 2)).toNat →
      EntryRead h x w (.error .badHeader)
  | outlineOutside (a : Nat) : FilledBefore h x 5 → x.outlines.length < headerWord h 1 →
      a = partStart h 5 + 3 * x.outlines.length → (w (a + 2)).toNat ≤ 1024 →
      262144 < (w a).toNat * 65536 + (w (a + 1)).toNat + (w (a + 2)).toNat →
      EntryRead h x w (.error .outOfBank)

/-- An install copy that holds the bus has read its whole header, and its image lies in the bank p, a bank position; w n is
the n-th word of the image (R6, R7; 11.5). -/
structure CopyInTables (s : State) (job : CopyJob) (p : Fin 8) (w : Nat → Word) : Prop where
  copy : s.copy = some job
  bus : s.bus.holder = some .copy
  bank : s.slots[job.slot].bank = p.val
  header : job.header.length = 9
  place : s.slots[job.slot].offset + imageLength job.header ≤ Config.bankWords
  unfinished : s.slots[job.slot].outlines.length < headerWord job.header 1
  word : ∀ n, w n = trueRead s.banks[p] (s.slots[job.slot].offset + n)

/-- The galley record g holds slot i in its font-use set. -/
def GalleyTable.uses (t : GalleyTable) (g : Fin 32) (i : Fin 8) : Bool :=
  match t.records[g] with
  | none => false
  | some r => decide (i ∈ r.useSet)

/-- The number of galley records whose font-use set contains a slot (R18). -/
def GalleyTable.users (t : GalleyTable) (i : Fin 8) : Nat := recordIds.countP fun g => t.uses g i

/-- Reference counts count the galleys that use each slot; a slot not in service has none, a RETIRING slot has some
(R12, R14, R16, R18). -/
structure CountsSound (s : State) : Prop where
  count : ∀ i : Fin 8, s.slots[i].refCount = s.table.users i
  nodup : ∀ (g : Fin 32) (r : Galley), s.table.records[g] = some r → r.useSet.Nodup
  unused : ∀ i : Fin 8, s.slots[i].state = .empty ∨ s.slots[i].state = .loading → s.slots[i].refCount = 0
  retiring : ∀ i : Fin 8, s.slots[i].state = .retiring → 0 < s.slots[i].refCount

/-! ## The slots that lines and words use (R16, R66, R109, R166) -/

/-- The slots of a spacing element and its marks. -/
def Spacing.usedSlots (e : Spacing) : List (Fin 8) := e.slot.toList ++ e.marks.flatMap fun m => m.slot.toList

/-- The slots of a shaped word. -/
def ShapedWord.usedSlots (w : ShapedWord) : List (Fin 8) := w.elements.flatMap Spacing.usedSlots

/-- The slots of an element of a line. -/
def LineElement.usedSlots : LineElement → List (Fin 8)
  | .glyph _ _ g => g.usedSlots
  | .space => []
  | .elongation i _ _ _ _ => [i]

/-- The slots of a placed-glyph list. -/
def placedSlots (glyphs : List PlacedGlyph) : List (Fin 8) := glyphs.flatMap fun p => p.slot.toList

/-- The slots of a held line and of the word held with it (R89). -/
def HeldLine.usedSlots (h : HeldLine) : List (Fin 8) :=
  placedSlots h.line.glyphs ++
    match h.rest with
    | .word w _ => w.usedSlots
    | .breakDue _ => []
    | .closed _ => []

/-- The slots of what a link holds of its galley's copy: the line assembly, the held line and the held word. -/
def Setting.usedSlots (x : Setting) : List (Fin 8) :=
  x.line.elements.flatMap LineElement.usedSlots ++
    match x.held with
    | none => []
    | some h => h.usedSlots

/-- What a galley's lines and its link hold of a slot is in the galley's font-use set (R16, R66), and no mirror entry has
a key for a slot in EMPTY state (R166). -/
structure UsesSound (s : State) : Prop where
  lines : ∀ (g : Fin 32) (r : Galley), s.table.records[g] = some r → ∀ line ∈ r.lines,
    ∀ k ∈ placedSlots line.glyphs, k ∈ r.useSet
  held : ∀ (i : Fin 4) (g : Fin 32) (r : Galley), s.links[i].setting.galley = some g → s.table.records[g] = some r →
    ∀ k ∈ s.links[i].setting.usedSlots, k ∈ r.useSet
  mirror : ∀ e ∈ s.imaging.mirror, s.slots[e.slot].state ≠ .empty

/-! ## Cache mirror (R166) -/

/-- No two mirror entries have the same unit entry or the same key (R166). -/
structure MirrorSound (mirror : List MirrorEntry) : Prop where
  entries : mirror.Pairwise fun a b => a.entry ≠ b.entry
  keys : mirror.Pairwise fun a b => ¬ (a.slot = b.slot ∧ a.glyph = b.glyph)

/-! ## Bus (R151, R152) -/

/-- The bus is held by a user that has work for it, and it is free only when no user waits (R151, R152). -/
structure BusSound (s : State) : Prop where
  holder : ∀ u, s.bus.holder = some u → s.wantsBus u = true
  free : s.bus.holder = none → ∀ u, s.wantsBus u = false

/-! ## Reactions taken in the event (R119, R143, R165) -/

/-- Nothing that an event must bring about is left undone after it: no selection round is due (R119), a walk in WAITING
LINES has nothing to send (R165, R170), an idle transmitter whose front end is ready has no reply to take (R143), and no
word waits at a port that takes words (R154, log 5). -/
structure Settled (s : State) : Prop where
  selection : s.imaging.unit = .ready → s.imaging.galley = none → s.table.choose = none
  waiting : s.imaging.unit = .waitingLines → ∀ r, s.film.galley = some r →
    r.killPending = false ∧ r.lines = [] ∧ r.ended = false
  replies : ∀ i : Fin 4, s.links[i].tx.state = .idle → s.links[i].tx.feReady = true →
    (∀ m, s.links[i].measure ≠ .waiting m) ∧ s.table.marked i = none
  offered : s.port.phase = .ready ∨ (∃ ws, s.port.phase = .taking ws) → s.port.offered = []

/-! ## Links (R36, R59, R61, R80, R134, R136, R138, R141, R143, R144) -/

/-- The bounds of a receiver, and its ready output off in DISABLED (R134, R136, R138, R141). -/
structure ReceiverSound (rx : Receiver) : Prop where
  ring : rx.ring.length ≤ Config.ringSize
  drop : rx.drop ≤ Config.saturation
  stray : rx.stray ≤ Config.saturation
  disabled : rx.recv = .disabled → rx.readyOut = false

/-- The bounds of a setting context; a hyphen point stands after a character of the word in the buffer (R36, R59, R61,
R80). -/
structure SettingSound (x : Setting) : Prop where
  stack : x.stack.length ≤ 6
  overflow : x.overflow ≤ 255
  extraLead : x.extraLead ≤ 384
  buffer : x.buffer.length < Config.wordChars
  points : ∀ p ∈ x.points, 1 ≤ p ∧ p ≤ x.buffer.length
  ladder : x.ladder ≤ 7

/-- A transmitter in IDLE holds nothing, in SENDING a byte in its shift register, in HELD the rest of a reply and no
byte in the shift register (R143 to R145). -/
structure TransmitterSound (tx : Transmitter) : Prop where
  idle : tx.state = .idle → tx.shift = none ∧ tx.buffer = [] ∧ tx.reply = none
  sending : tx.state = .sending → tx.shift ≠ none
  held : tx.state = .held → tx.shift = none ∧ tx.buffer ≠ [] ∧ tx.feReady = false

/-- A link within its bounds. -/
structure LinkSound (l : Link) : Prop where
  rx : ReceiverSound l.rx
  setting : SettingSound l.setting
  tx : TransmitterSound l.tx

/-! ## Galley Table and Line Store (R110 to R123, R128) -/

/-- The line records held in all galleys' line lists (R116). -/
def GalleyTable.heldLines (t : GalleyTable) : Nat :=
  (recordIds.map fun g =>
    match t.records[g] with
    | none => 0
    | some r => r.lines.length).sum

/-- The parser states in which a link sets its current galley (R36, R54, R56, R114). -/
def Setting.sets (x : Setting) : Prop :=
  x.parser = .inGalley ∨ x.parser = .waitLine ∨ x.parser = .waitLimit ∨
    (x.parser = .inMeasure ∧ x.ret = .inGalley) ∨ (x.parser = .waitMeasure ∧ x.resume = .inGalley)

/-- A galley that its link's parser may be setting: not ended, no kill pending, in a state that receives copy (R111,
R112, R123). -/
def Galley.receives (r : Galley) (i : Fin 4) : Prop :=
  r.link = i ∧ r.ended = false ∧ r.killPending = false ∧
    (r.state = .receiving ∨ r.state = .pressed ∨ r.state = .exposing ∨ r.state = .failed)

/-- A record that closes the exposing galley at the unit, its KILL MARK or its GALLEY CLOSE, not void. -/
def Outstanding.closes (o : Outstanding) : Prop := o.void = false ∧ (o.record = .killMark ∨ o.record = .galleyClose)

/-- The Galley Table and Line Store are in order: all 512 line records are accounted for (R116), a DONE galley holds no
line (R128), the eligible list has no duplicates and its galleys are PRESSED or SET and not of class 0 (R118), one galley at most is
EXPOSING and it is the one the walk holds (R120, R164), a final report in hand names a DONE record of its link (R128),
and a link's current galley is one that receives copy from it (R111). -/
structure TableSound (s : State) : Prop where
  lines : s.table.freeLines + s.table.heldLines = Config.poolLines
  done : ∀ (g : Fin 32) (r : Galley), s.table.records[g] = some r → r.state = .done → r.lines = []
  once : s.table.eligible.Nodup
  eligible : ∀ g ∈ s.table.eligible, ∃ r, s.table.records[g] = some r ∧ (r.state = .pressed ∨ r.state = .set) ∧ r.cls ≠ 0
  exposing : ∀ g : Fin 32, s.imaging.galley = some g ↔ ∃ r, s.table.records[g] = some r ∧ r.state = .exposing
  closing : ∀ o, s.imaging.out = some o → o.closes → ∀ r, s.film.galley = some r → r.ended = true ∨ r.killPending = true
  final : ∀ (i : Fin 4) (g : Fin 32), s.links[i].tx.reply = some (.report g true) →
    ∃ r, s.table.records[g] = some r ∧ r.state = .done ∧ r.link = i
  current : ∀ (i : Fin 4) (g : Fin 32), s.links[i].setting.galley = some g →
    s.links[i].setting.sets ∧ ∃ r, s.table.records[g] = some r ∧ r.receives i

/-! ## Turns of the Setter (R37 to R55, R87, R114, R117) -/

/-- A galley that takes no new line (R115). -/
def AtLineLimit (r : Galley) : Prop :=
  (r.state = .receiving ∨ r.state = .pressed ∨ r.state = .failed) ∧ 96 ≤ r.lines.length

/-- A link is passed over at its turn: the condition that holds its parser stands, or its ring holds no word (R117). -/
def PassedOver (s : State) (i : Fin 4) : Prop :=
  match s.links[i].setting.parser with
  | .waitRecord => ∀ g : Fin 32, s.table.records[g] ≠ none
  | .waitLine => s.table.freeLines = 0
  | .waitLimit => s.links[i].setting.galley = none ∨
      ∃ (g : Fin 32) (r : Galley), s.links[i].setting.galley = some g ∧ s.table.records[g] = some r ∧ AtLineLimit r
  | .waitMeasure => s.links[i].measure ≠ .empty ∨ s.links[i].rx.ring = []
  | .idle => s.links[i].rx.ring = []
  | .header => s.links[i].rx.ring = []
  | .inGalley => s.links[i].rx.ring = []
  | .skip => s.links[i].rx.ring = []
  | .inMeasure => s.links[i].rx.ring = []

/-- What a turn of link i leaves alone, u being the state before the reactions of the event: of the receiver all but the
ring, the ready output and the stray count, the transmitter, the other links, and all blocks but the Galley Table. -/
structure TurnFrame (s u : State) (i : Fin 4) (rest : List RingEntry) : Prop where
  rotation : u.rotation = i + 1
  rx : u.links[i].rx =
    { s.links[i].rx with ring := rest, readyOut := u.links[i].rx.readyOut, stray := u.links[i].rx.stray }
  tx : u.links[i].tx = s.links[i].tx
  others : ∀ j : Fin 4, j ≠ i → u.links[j] = s.links[j]
  slots : u.slots = s.slots
  classes : u.classes = s.classes
  banks : u.banks = s.banks
  port : u.port = s.port
  imaging : u.imaging = s.imaging
  attention : u.attention = s.attention

/-- It is the turn of link i, in the parser state p with no code pending, and this entry stands at the head of its ring,
without a damage marker (R117, R134). -/
structure WordTurn (s : State) (i : Fin 4) (p : ParserState) (code : Option Word) (drop : Nat)
    (rest : List RingEntry) : Prop where
  turn : s.rotation = i
  parser : s.links[i].setting.parser = p
  pending : s.links[i].setting.pending = none
  ring : s.links[i].rx.ring = { code := code, marker := false, drop := drop } :: rest

/-- A closed line appended to its galley's list from the pool (R87, R112, R113, R114). -/
def LineAppended (t t' : GalleyTable) (g : Fin 32) (r : Galley) (line : ClosedLine) : Prop :=
  ∃ q, t'.records[g] = some q ∧
    q = { r with
      linesSet := min (r.linesSet + 1) 65535
      lines := r.lines ++ [{ galley := g, number := min (r.linesSet + 1) 65535, advance := line.advance
                             quad := line.quad, flags := line.flags, glyphs := line.glyphs }]
      state := if r.state = .receiving ∧ 95 ≤ r.lines.length then .pressed else r.state
      flags := q.flags, mark := q.mark } ∧
    (∀ f, hasFlag q.flags f = true ↔ hasFlag r.flags f = true ∨ (f = .forcedLine ∧ line.flags.forced = true) ∨
      (f = .oversetLine ∧ line.flags.overset = true) ∨ (f = .looseLine ∧ line.flags.loose = true)) ∧
    (q.mark = true ↔ r.mark = true ∨ q.flags ≠ r.flags) ∧
    (∀ h : Fin 32, h ≠ g → t'.records[h] = t.records[h]) ∧ t'.freeLines + 1 = t.freeLines ∧ t'.order = t.order ∧
    t'.eligible = if r.state = .receiving ∧ 95 ≤ r.lines.length ∧ r.cls ≠ 0 ∧ g ∉ t.eligible then t.eligible ++ [g]
      else t.eligible

/-- A galley ended: its ended flag set, RECEIVING or PRESSED become SET with the report due and the galley on the
eligible list if its class is not 0 (R48, R112, R118). -/
def GalleyEnded (t t' : GalleyTable) (g : Fin 32) (r : Galley) : Prop :=
  t'.records[g] = some (if r.state = .receiving ∨ r.state = .pressed then
      { r with ended := true, state := .set, mark := true } else { r with ended := true }) ∧
    (∀ h : Fin 32, h ≠ g → t'.records[h] = t.records[h]) ∧ t'.freeLines = t.freeLines ∧ t'.order = t.order ∧
    t'.eligible = if (r.state = .receiving ∨ r.state = .pressed) ∧ r.cls ≠ 0 ∧ g ∉ t.eligible then t.eligible ++ [g]
      else t.eligible

/-- The setting context when its galley has ended (R48). -/
def Setting.ended (x : Setting) : Setting :=
  { x with parser := .idle, header := [], heldFlags := 0#16, galley := none, ctx := none, stack := [], overflow := 0
           extraLead := 0, buffer := [], points := [], line := emptyLine, held := none }

/-- The hyphen-ladder count after a line (R86). -/
def ladderAfter (x : Setting) (line : ClosedLine) : Nat := if line.flags.hyphenated then min (x.ladder + 1) 7 else 0

/-- What asking for a record for a closed line brings: the parser waits with the line at the limit or for want of a free
record, or the line is appended and the line assembly begins afresh, and at a GALLEY END the galley is ended (R48, R86,
R87, R114, R115). -/
structure RecordAsked (t t' : GalleyTable) (x y : Setting) (g : Fin 32) (r : Galley) (line : ClosedLine)
    (brk : Break) : Prop where
  limit : AtLineLimit r → t' = t ∧ y = { x with parser := .waitLimit, held := some { line := line, rest := .closed brk } }
  pool : ¬ AtLineLimit r → t.freeLines = 0 →
    t' = t ∧ y = { x with parser := .waitLine, held := some { line := line, rest := .closed brk } }
  closes : ¬ AtLineLimit r → 0 < t.freeLines → brk ≠ .galleyEnd →
    LineAppended t t' g r line ∧
      y = { x with parser := .inGalley, held := none, line := emptyLine, extraLead := 0, ladder := ladderAfter x line }
  ends : ¬ AtLineLimit r → 0 < t.freeLines → brk = .galleyEnd →
    ∃ v q, LineAppended t v g r line ∧ v.records[g] = some q ∧ GalleyEnded v t' g q ∧
      y = { x with ladder := ladderAfter x line }.ended

/-- The codes that close a line, with the break, the quad and the flags of the close (R46, R48, R87; 11.1). -/
inductive LineCode (r : Galley) : Word → Break → Quad → LineFlags → Prop
  | endParagraph : LineCode r 0xFF21#16 .endParagraph r.header.quad { noLineFlags with paragraphEnd := true }
  | quadLeft : LineCode r 0xFF22#16 (.quad .left) .left noLineFlags
  | quadRight : LineCode r 0xFF23#16 (.quad .right) .right noLineFlags
  | quadCentre : LineCode r 0xFF24#16 (.quad .centre) .centre noLineFlags
  | galleyEnd : LineCode r 0xFF02#16 .galleyEnd r.header.quad { noLineFlags with paragraphEnd := true }

/-- A font number that a RESIDENT slot has (R14, step 2). -/
def FontResident (s : State) (n : Nat) : Prop :=
  1 ≤ n ∧ n ≤ 255 ∧ ∃ k : Fin 8, s.slots[k].state = .resident ∧ s.slots[k].fontNumber = n

/-! ## Header fields (R39) -/

/-- A row of the table of R39: the range, and what a value below it, a value above it and a damaged word become. -/
structure FieldRule where
  low : Nat
  high : Nat
  below : Nat
  above : Nat
  damaged : Nat

/-- The table of R39 for fields 1 to 16. -/
def fieldRule : Nat → FieldRule
  | 1 => ⟨1, 65535, 1, 1, 1⟩
  | 2 => ⟨0, 3, 0, 3, 3⟩
  | 3 => ⟨0, 255, 0, 255, 255⟩
  | 4 => ⟨0, 1, 0, 0, 0⟩
  | 5 => ⟨0, 3, 0, 0, 0⟩
  | 6 => ⟨24, 1440, 24, 1440, 24⟩
  | 7 => ⟨10, 384, 10, 384, 10⟩
  | 8 => ⟨0, 65535, 0, 0, 0⟩
  | 9 => ⟨10, 192, 10, 192, 10⟩
  | 10 => ⟨10, 192, 10, 192, 10⟩
  | 11 => ⟨0, 72, 0, 72, 0⟩
  | 12 => ⟨0, 72, 0, 72, 0⟩
  | 13 => ⟨0, 144, 0, 144, 0⟩
  | 14 => ⟨0, 8, 0, 8, 0⟩
  | 15 => ⟨0, 3, 0, 3, 0⟩
  | _ => ⟨0, 7, 0, 7, 0⟩

/-- The value that a word of the field becomes. -/
def FieldRule.value (f : FieldRule) : Option Word → Nat
  | none => f.damaged
  | some w => if w.toNat < f.low then f.below else if f.high < w.toNat then f.above else w.toNat

/-- The word lies outside the field's range. -/
def FieldRule.outside (f : FieldRule) (w : Word) : Prop := w.toNat < f.low ∨ f.high < w.toNat

/-- What a word of field 17, the hyphen code, becomes: link fill, a composition code and a damaged word become 002Dh. -/
def hyphenField : Option Word → Nat
  | none => 0x2D
  | some w => if w.toNat < 0x20 ∨ 0xFF00 ≤ w.toNat then 0x2D else w.toNat

/-! ## Galley commands of a link (R53, R123) -/

/-- It is the turn of link i, whose parser takes the last parameter word of a galley command. -/
structure CommandTurn (s : State) (i : Fin 4) (code : Code) (params : List (Option Word)) (last : Option Word)
    (drop : Nat) (rest : List RingEntry) : Prop where
  turn : s.rotation = i
  parser : s.links[i].setting.parser = .idle ∨ s.links[i].setting.parser = .inGalley ∨
    s.links[i].setting.parser = .skip
  pending : s.links[i].setting.pending = some { code := code, params := params, passOver := false }
  ring : s.links[i].rx.ring = { code := last, marker := false, drop := drop } :: rest

/-- The link's stray count after a turn that counts so many stray words; a drop count is counted in IDLE (R50, R53,
R138). -/
def strayAfter (s : State) (i : Fin 4) (drop words : Nat) : Nat :=
  if s.links[i].setting.parser = .idle then min (s.links[i].rx.stray + drop + words) 65535
  else if words = 0 then s.links[i].rx.stray else min (s.links[i].rx.stray + words) 65535

/-- The record g is one that a command of link i with this galley number may name. -/
def Names (t : GalleyTable) (i : Fin 4) (n : Nat) (g : Fin 32) : Prop :=
  ∃ r, t.records[g] = some r ∧ r.link = i ∧ r.number = n ∧ r.state ≠ .done

/-- The record g is the earliest allocated of those that the command may name. -/
def Target (t : GalleyTable) (i : Fin 4) (n : Nat) (g : Fin 32) : Prop :=
  ∃ pre post, t.order = pre ++ g :: post ∧ Names t i n g ∧ ∀ h ∈ pre, ¬ Names t i n h

/-- A galley killed, by its state (R116, R118, R123). -/
structure GalleyKilled (t t' : GalleyTable) (g : Fin 32) (r : Galley) : Prop where
  stored : r.state ≠ .exposing →
    t'.records[g] = some { r with state := .done, outcome := .killed, lines := [], mark := true } ∧
      t'.freeLines = t.freeLines + r.lines.length ∧ t'.eligible = t.eligible.filter (· ≠ g)
  exposing : r.state = .exposing →
    t'.records[g] = some { r with killPending := true, outcome := if r.killPending then r.outcome else .killed } ∧
      t'.freeLines = t.freeLines ∧ t'.eligible = t.eligible
  others : ∀ h : Fin 32, h ≠ g → t'.records[h] = t.records[h]
  order : t'.order = t.order

/-! ## The walk between two lines (R164, R165, R170) -/

/-- What the walk of an exposing galley does between two lines: KILL MARK if a kill is pending, else the head line's
ADVANCE, else GALLEY CLOSE of an ended galley, else WAITING LINES with nothing outstanding (R164, R165, R170). -/
structure WalkGoesOn (m : Imaging) (r : Galley) : Prop where
  kill : r.killPending = true → m.unit = .sending ∧ m.out = some { record := .killMark, void := false }
  line : r.killPending = false → ∀ line rest, r.lines = line :: rest →
    m.unit = .sending ∧ m.out = some { record := .advance line.advance, void := false } ∧ m.pos = 0 ∧ m.inProgress = true
  close : r.killPending = false → r.lines = [] → r.ended = true →
    m.unit = .sending ∧ m.out = some { record := .galleyClose, void := false }
  wait : r.killPending = false → r.lines = [] → r.ended = false → m.unit = .waitingLines ∧ m.out = none

end Sys2Proof.Machine
end

