-- ==== Sys2Proof/Certificates/Slice0/Obligations.lean ====
section
/-! DEFINITION. The statements for the provers. -/

open Sys2Proof Sys2Proof.Machine

/-! ## Steps and resets -/

/-- A step takes the command at the front of the queue and runs it on the state with the queue's rest; on an empty queue
the block idles (the model's choice, log 6). -/
def Obligations.StepRunsFrontCommand : Prop :=
  (∀ (c : Instr) (rest : List Instr) (s : State), step (s.withPending (c :: rest)) = exec c (s.withPending rest)) ∧
    ∀ s : State, s.pending = [] → step s = .next s

/-- The values the manual gives every block after power-on reset (R23, R34, R36, R59, R80, R130, R145, R146, R151, R160,
R163). -/
def Obligations.ResetLeavesStatedValues : Prop :=
  let s := State.reset
  (∀ i : Fin 8, s.slots[i] = emptySlotRecord) ∧ s.copy = none ∧ s.classes = [] ∧
    (∀ g : Fin 32, s.table.records[g] = none) ∧ s.table.order = [] ∧ s.table.eligible = [] ∧ s.table.freeLines = 512 ∧
    s.table.stalled = false ∧ s.rotation = 0 ∧
    (∀ i : Fin 4,
      let rx := s.links[i].rx
      let x := s.links[i].setting
      let tx := s.links[i].tx
      rx.rate = .b9600 ∧ rx.recv = .disabled ∧ rx.discardPending = false ∧ rx.pair = .highNext ∧ rx.framing = none ∧
        rx.ring = [] ∧ rx.drop = 0 ∧ rx.readyOut = false ∧ rx.stray = 0 ∧
        x.parser = .idle ∧ x.ret = .idle ∧ x.header = [] ∧ x.heldFlags = 0#16 ∧ x.pending = none ∧ x.galley = none ∧
        x.ctx = none ∧ x.stack = [] ∧ x.overflow = 0 ∧ x.extraLead = 0 ∧ x.buffer = [] ∧ x.points = [] ∧
        x.line.elements = [] ∧ s.links[i].measure = .empty ∧
        tx.state = .idle ∧ tx.shift = none ∧ tx.buffer = []) ∧
    s.bus.holder = none ∧ s.bus.last = none ∧ s.port.phase = .ready ∧ s.attention = noAttention ∧
    s.attention.line = false ∧ s.imaging.unit = .offline ∧ s.imaging.mirror = [] ∧ s.imaging.galley = none ∧
    s.imaging.out = none

/-- The state after reset meets every invariant that the statements below say a step keeps. It rests on the model's own
choices: that the sockets are empty and no word is offered at the port (log 1), the canonical form of their contents (log
2), and that a word offered to a READY port is taken in the event (log 5). -/
def Obligations.ResetMeetsInvariants : Prop :=
  StoreCanonical State.reset ∧ DirectorySound State.reset ∧ CountsSound State.reset ∧
    MirrorSound State.reset.imaging.mirror ∧ UsesSound State.reset ∧ BusSound State.reset ∧ Settled State.reset ∧
    (∀ i : Fin 4, LinkSound State.reset.links[i]) ∧ TableSound State.reset

/-- POWER_ON_RESET from any state: every block at its starting values, the sockets kept and sensed afresh, a hold that
is requested granted, a unit that is ready sent CACHE CLEAR (R160, R163), the contents of board RAM not altered (R23). The
model's own: that the sockets and the outside lines persist (log 3), that no word stays offered at the port (log 5), that no
break is going on (log 1), the values of the hyphen-ladder count, of the state that WAIT MEASURE goes back to and of the
outline buffer (log 23), and how many words a WRITE STORE that held the bus had stored (a free value, log 10). -/
def Obligations.PowerOnResetStartsEveryBlock : Prop :=
  ∀ s : State, ∃ t, exec .powerOnReset s = .next t ∧
    (∀ i : Fin 8, t.slots[i] = emptySlotRecord) ∧ t.copy = none ∧ t.classes = [] ∧ t.table = emptyTable ∧
    (∀ i : Fin 4, t.links[i] = { resetLink with tx := { resetLink.tx with feReady := s.links[i].tx.feReady } }) ∧
    t.rotation = 0 ∧
    (∀ p : Fin 8, t.banks[p].cartridge = s.banks[p].cartridge ∧
      (t.banks[p].prot = true ↔ ∃ m, s.banks[p].cartridge = some m ∧ readMemory m 0 = Config.protectMark) ∧
      (s.bus.holder ≠ some .store ∨ (∀ o ws, s.port.phase ≠ .acting (.write p o ws)) →
        t.banks[p].board = s.banks[p].board) ∧
      ∀ o ws, s.bus.holder = some .store → s.port.phase = .acting (.write p o ws) →
        (s.banks[p].board = none → t.banks[p].board = none) ∧
        ∀ m : Memory, s.banks[p].board = some m → Memory.wf m → o + ws.length ≤ Config.bankWords →
          ∃ (n : Nat) (m' : Memory), n ≤ ws.length ∧ t.banks[p].board = some m' ∧
            (∀ a, readMemory m' a = if o ≤ a ∧ a < o + n then ws.getD (a - o) 0#16 else readMemory m a) ∧
            (s.banks[p].kind ≠ .board ∨ guarded s.slots p = true → n = 0)) ∧
    t.bus = { holder := if s.bus.holdRequest then some .hold else none, holdRequest := s.bus.holdRequest, last := none } ∧
    t.port = { phase := .ready, offered := [] } ∧ t.attention = noAttention ∧
    t.imaging =
      if s.imaging.ready then
        { offlineImaging with ready := true, unit := .sending, out := some { record := .cacheClear, void := false } }
      else offlineImaging

/-- LIBRARY_RESET taken in READY: work in progress cleared; resident fonts, class list, rates, enables and the bank
positions kept (R161, R23, R130, R145, R146, R173). That a transmitter with a byte in its shift register is SENDING until
the byte has left is DEDUCED (log 25), and the idle setting context holds values that the model names for fields that
nothing reads before they are set (log 23). -/
def Obligations.LibraryResetClearsWorkInProgress : Prop :=
  ∀ s : State, s.port.phase = .ready → ∃ t, exec .libraryReset s = .next t ∧
    t.port.phase = .responding [0x0100#16] ∧ t.attention = noAttention ∧ t.classes = s.classes ∧ t.banks = s.banks ∧
    t.copy = none ∧ t.table = emptyTable ∧ t.rotation = 0 ∧
    (∀ i : Fin 8,
      t.slots[i] = if s.slots[i].state = .resident then { s.slots[i] with refCount := 0 } else emptySlotRecord) ∧
    (∀ i : Fin 4,
      let l := s.links[i]
      t.links[i] =
        { rx := { l.rx with recv := if l.rx.recv = .disabled then .disabled else .receiving, discardPending := false
                            pair := .highNext, framing := none, ring := [], drop := 0, stray := 0
                            readyOut := decide (l.rx.recv ≠ .disabled) }
          setting := idleSetting, measure := .empty
          tx := { l.tx with buffer := [], reply := none
                            state := if l.tx.shift.isSome then .sending else .idle } }) ∧
    t.bus = { holder := if s.bus.holdRequest then some .hold else none, holdRequest := s.bus.holdRequest, last := none } ∧
    t.imaging.galley = none ∧ t.imaging.fetch = none ∧ t.imaging.mirror = [] ∧ t.imaging.ready = s.imaging.ready ∧
    t.imaging.unit = (if s.imaging.ready then .sending else .offline) ∧
    t.imaging.out =
      match s.imaging.out with
      | some o => some { o with void := true }
      | none => if s.imaging.ready then some { record := .cacheClear, void := false } else none

/-! ## Fonts -/

/-- INSTALL_FONT in READY: BUSY while a slot is LOADING, NO SLOT without an EMPTY slot, else the lowest EMPTY slot
becomes LOADING with the place named, STARTED is answered and the copy begins (R5). -/
def Obligations.InstallFontStartsOneCopy : Prop :=
  ∀ (s : State) (bank : Word) (offset : BitVec 32), s.port.phase = .ready →
    ((∃ i : Fin 8, s.slots[i].state = .loading) →
      exec (.installFont bank offset) s = .next (s.respond [0x0300#16])) ∧
    ((∀ i : Fin 8, s.slots[i].state ≠ .loading ∧ s.slots[i].state ≠ .empty) →
      exec (.installFont bank offset) s = .next (s.respond [0x0402#16])) ∧
    ∀ i p : Fin 8, (∀ j : Fin 8, s.slots[j].state ≠ .loading) → s.slots[i].state = .empty →
      (∀ j : Fin 8, j < i → s.slots[j].state ≠ .empty) → bank.toNat = p.val → s.banks[p].present = true →
      ∃ t, exec (.installFont bank offset) s = .next t ∧ t.port.phase = .responding [0x0200#16] ∧
        t.slots = s.slots.set i { emptySlotRecord with state := .loading, bank := p.val, offset := offset.toNat } ∧
        t.copy = some { slot := i, header := [], prot := s.banks[p].prot } ∧ guarded t.slots p = true ∧
        t.classes = s.classes ∧ t.banks = s.banks ∧ t.attention.installFailed = s.attention.installFailed

/-- A copy that fails takes the LOADING slot to EMPTY and sets INSTALL FAILED with the reason: at its start when the
position is no position or not present (R7 check 1, R175; in the event of the command, log 30); when its ninth header
word has been read and a field is out of its range or the image does not lie in the bank (R7 checks 2 and 3); and when a
table entry has been read that fails its check (R7 checks 4 and 5). An entry that passes joins the slot's tables, and
until the last outline directory entry the copy goes on (R6). -/
def Obligations.InstallCopyFailsByItsChecks : Prop :=
  (∀ (s : State) (bank : Word) (offset : BitVec 32) (i : Fin 8), s.port.phase = .ready →
    (∀ j : Fin 8, s.slots[j].state ≠ .loading) → s.slots[i].state = .empty →
    (∀ j : Fin 8, j < i → s.slots[j].state ≠ .empty) →
    (7 < bank.toNat ∨ ∃ p : Fin 8, bank.toNat = p.val ∧ s.banks[p].present = false) →
    ∃ t, exec (.installFont bank offset) s = .next t ∧ t.port.phase = .responding [0x0200#16] ∧ t.copy = none ∧
      t.slots = s.slots.set i emptySlotRecord ∧ t.attention.installFailed = some .outOfBank) ∧
  (∀ (s : State) (job : CopyJob) (p : Fin 8) (h : List Word), s.copy = some job → s.bus.holder = some .copy →
    s.slots[job.slot].bank = p.val → job.header.length = 8 → s.slots[job.slot].offset + 8 < Config.bankWords →
    h = job.header ++ [trueRead s.banks[p] (s.slots[job.slot].offset + 8)] →
    (headerSound h = false ∨ Config.bankWords < s.slots[job.slot].offset + imageLength h) →
    ∃ t, exec .installCopyRead s = .next t ∧
      CopyFails s t job (if headerSound h = false then .badHeader else .outOfBank)) ∧
  ∀ (s : State) (job : CopyJob) (p : Fin 8) (w : Nat → Word), CopyInTables s job p w →
    (∀ reason, EntryRead job.header s.slots[job.slot] w (.error reason) →
      ∃ t, exec .installCopyRead s = .next t ∧ CopyFails s t job reason) ∧
    ∀ x, EntryRead job.header s.slots[job.slot] w (.ok x) → x.outlines.length < headerWord job.header 1 →
      ∃ t, exec .installCopyRead s = .next t ∧ CopyGoesOn s t job x

/-- INSTALL_COPY_READ by a copy that holds the bus reads the next header word from its place in the bank, whatever the
protection, and keeps everything else of the directory (R6, R148). With the ninth word the header has been read: if its
fields are in their ranges and the image lies in the bank (R7 checks 2 and 3; 11.5), the slot takes its font number, glyph
count, fallback font number, elongation glyph and mark stack step, and the protected flag as it stood when the copy began,
and the copy goes on (R6). -/
def Obligations.InstallCopyReadsNextHeaderWord : Prop :=
  (∀ h : List Word, headerSound h = true ↔
    (1 ≤ headerWord h 0 ∧ headerWord h 0 ≤ 255) ∧ (1 ≤ headerWord h 1 ∧ headerWord h 1 ≤ 512) ∧
      headerWord h 2 ≤ 512 ∧ headerWord h 3 ≤ 256 ∧ headerWord h 4 ≤ 64 ∧ headerWord h 5 ≤ 64 ∧ headerWord h 6 ≤ 255 ∧
      headerWord h 7 < headerWord h 1 ∧ headerWord h 8 ≤ 36) ∧
  (∀ h : List Word, imageLength h =
    9 + headerWord h 1 + 5 * headerWord h 2 + 3 * headerWord h 3 + 4 * headerWord h 4 + 2 * headerWord h 5 +
      3 * headerWord h 1) ∧
  ∀ (s : State) (job : CopyJob) (p : Fin 8) (h : List Word), s.copy = some job → s.bus.holder = some .copy →
    s.slots[job.slot].bank = p.val → s.slots[job.slot].offset + job.header.length < Config.bankWords →
    h = job.header ++ [trueRead s.banks[p] (s.slots[job.slot].offset + job.header.length)] →
    (job.header.length < 8 → ∃ t, exec .installCopyRead s = .next t ∧
      t.copy = some { job with header := h } ∧ t.slots = s.slots ∧ t.banks = s.banks ∧ t.classes = s.classes ∧
      t.port = s.port) ∧
    (job.header.length = 8 → headerSound h = true →
      s.slots[job.slot].offset + imageLength h ≤ Config.bankWords → ∃ t, exec .installCopyRead s = .next t ∧
        t.copy = some { job with header := h } ∧
        t.slots = s.slots.set job.slot { s.slots[job.slot] with
          fontNumber := headerWord h 0, glyphCount := headerWord h 1, fallback := headerWord h 6
          elongation := headerWord h 7, stackStep := headerWord h 8, prot := job.prot } ∧
        t.attention.installFailed = s.attention.installFailed ∧ t.attention.installDone = s.attention.installDone ∧
        t.banks = s.banks ∧ t.classes = s.classes ∧ t.port = s.port)

/-- The last read of a copy makes the slot RESIDENT with count 0, sets INSTALL DONE, and withdraws in the same event the
other RESIDENT slot of its number, if there is one (R9). -/
def Obligations.CompletedCopyReplacesItsFont : Prop :=
  ∀ (s : State) (job : CopyJob) (p : Fin 8) (w : Nat → Word) (x : Slot), CopyInTables s job p w →
    EntryRead job.header s.slots[job.slot] w (.ok x) → x.outlines.length = headerWord job.header 1 →
    (∀ i j : Fin 8, i ≠ job.slot → j ≠ job.slot → s.slots[i].state = .resident → s.slots[j].state = .resident →
      s.slots[i].fontNumber = s.slots[j].fontNumber → i = j) →
    ∃ t, exec .installCopyRead s = .next t ∧ t.copy = none ∧ t.attention.installDone = some job.slot ∧
      t.slots[job.slot] = { x with state := .resident, refCount := 0, imageLost := false } ∧
      ∀ j : Fin 8, j ≠ job.slot →
        t.slots[j] =
          if s.slots[j].state = .resident ∧ s.slots[j].fontNumber = x.fontNumber then
            (if s.slots[j].refCount = 0 then emptySlotRecord else { s.slots[j] with state := .retiring })
          else s.slots[j]

/-- RETIRE_FONT in READY: NOT RESIDENT when no slot is RESIDENT with the number, else that slot is withdrawn, to EMPTY at
count 0 and to RETIRING above it, and no other slot changes (R11). -/
def Obligations.RetireFontWithdrawsOneSlot : Prop :=
  ∀ (s : State) (font : Word), s.port.phase = .ready →
    ((∀ i : Fin 8, ¬ (s.slots[i].state = .resident ∧ s.slots[i].fontNumber = font.toNat)) →
      exec (.retireFont font) s = .next (s.respond [0x0403#16])) ∧
    ∀ i : Fin 8, 1 ≤ font.toNat → font.toNat ≤ 255 → s.slots[i].state = .resident →
      s.slots[i].fontNumber = font.toNat →
      (∀ j : Fin 8, s.slots[j].state = .resident → s.slots[j].fontNumber = font.toNat → j = i) →
      ∃ t, exec (.retireFont font) s = .next t ∧ t.port.phase = .responding [0x0100#16] ∧
        t.slots = s.slots.set i
          (if s.slots[i].refCount = 0 then emptySlotRecord else { s.slots[i] with state := .retiring }) ∧
        t.copy = s.copy ∧ t.classes = s.classes ∧ t.banks = s.banks

/-! ## Font store -/

/-- READ_STORE and WRITE_STORE in READY: BAD VALUE for a position above 7, a count that is not 1 to 64, or words past the
bank's end; else the port is ACTING with the command (R155, R156). -/
def Obligations.StoreCommandsCheckTheirPlace : Prop :=
  ∀ (s : State) (bank : Word) (offset : BitVec 32) (count : Word) (words : List Word), s.port.phase = .ready →
    (∀ p : Fin 8, bank.toNat = p.val → 1 ≤ count.toNat → count.toNat ≤ 64 →
      offset.toNat + count.toNat ≤ Config.bankWords →
      (∃ t, exec (.readStore bank offset count) s = .next t ∧
        t.port.phase = .acting (.read p offset.toNat count.toNat) ∧ t.slots = s.slots ∧ t.banks = s.banks) ∧
      (words.length = count.toNat → ∃ t, exec (.writeStore bank offset count words) s = .next t ∧
        t.port.phase = .acting (.write p offset.toNat words) ∧ t.slots = s.slots ∧ t.banks = s.banks)) ∧
    ((7 < bank.toNat ∨ count.toNat = 0 ∨ 64 < count.toNat) →
      exec (.readStore bank offset count) s = .next (s.respond [0x0404#16]) ∧
      exec (.writeStore bank offset count []) s = .next (s.respond [0x0404#16])) ∧
    (bank.toNat ≤ 7 → 1 ≤ count.toNat → count.toNat ≤ 64 → Config.bankWords < offset.toNat + count.toNat →
      exec (.readStore bank offset count) s = .next (s.respond [0x0404#16]) ∧
      (words.length = count.toNat →
        exec (.writeStore bank offset count words) s = .next (s.respond [0x0404#16])))

/-- READ_STORE_COMPLETE by the store command that holds the bus: DONE with the count and the words in order, each from the
cartridge or the board RAM as the kind gives, FFFFh from an ABSENT or protected bank; the bus is released (R155, R147,
R148). -/
def Obligations.ReadStoreDeliversItsWords : Prop :=
  ∀ (s : State) (p : Fin 8) (offset count : Nat), s.port.phase = .acting (.read p offset count) →
    s.bus.holder = some .store →
    ∃ t ws, exec .readStoreComplete s = .next t ∧ t.port.phase = .responding (0x0100#16 :: natWord count :: ws) ∧
      ws.length = count ∧
      (∀ k, k < count → ws.getD k 0#16 =
        if s.banks[p].prot then 0xFFFF#16
        else match s.banks[p].cartridge, s.banks[p].board with
          | some m, _ => readMemory m (offset + k)
          | none, some m => readMemory m (offset + k)
          | none, none => 0xFFFF#16) ∧
      t.bus.holder ≠ some .store ∧ t.slots = s.slots ∧ t.banks = s.banks ∧ t.classes = s.classes

/-- WRITE_STORE_COMPLETE by the store command that holds the bus: ABSENT, READ-ONLY or GUARDED by the first check that
fails, with nothing stored and no cause set; else DONE with the words stored at the offset in order and every other word
of every bank as it was (R156, R147, R149; that the checks are made in this event, log 34). The bus is released, and the
reactions of the event follow; of the causes they may set STORE STALLED alone (R129). -/
def Obligations.WriteStoreStoresOrIsRefused : Prop :=
  ∀ (s : State) (p : Fin 8) (offset : Nat) (words : List Word), s.port.phase = .acting (.write p offset words) →
    s.bus.holder = some .store →
    (s.banks[p].kind ≠ .board ∨ guarded s.slots p = true →
      ∀ u : State,
        u = { s with
          port := { s.port with phase := .responding [if s.banks[p].kind = .absent then 0x0406#16
              else if s.banks[p].kind = .cartridge then 0x0407#16 else 0x0408#16] }
          bus := { s.bus with holder := none } } →
        exec .writeStoreComplete s = .next u.settle ∧ u.settle.bus.holder ≠ some .store ∧
          u.settle.attention = { s.attention with storeStalled := u.settle.attention.storeStalled }) ∧
    ∀ m : Memory, s.banks[p].kind = .board → s.banks[p].board = some m → guarded s.slots p = false → Memory.wf m →
      offset + words.length ≤ Config.bankWords →
      ∃ t m', exec .writeStoreComplete s = .next t ∧ t.port = { s.port with phase := .responding [0x0100#16] } ∧
        t.banks[p].board = some m' ∧
        (∀ a, readMemory m' a = if offset ≤ a ∧ a < offset + words.length then words.getD (a - offset) 0#16
          else readMemory m a) ∧
        t.banks[p].cartridge = s.banks[p].cartridge ∧ (∀ q : Fin 8, q ≠ p → t.banks[q] = s.banks[q]) ∧
        t.slots = s.slots ∧ t.bus.holder ≠ some .store ∧
        t.attention = { s.attention with storeStalled := t.attention.storeStalled }

/-- HOLD_REQUEST raises the line and takes a free bus in the event; a user that has the bus keeps it. HOLD_REQUEST_DROP
drops the line and with it the grant, and a bus so freed goes to a store command first, then to the copy or the fetcher,
by turns if both wait, and is free if no user waits (R151, R152). -/
def Obligations.HoldIsGrantedAndDropped : Prop :=
  ∀ s : State,
    (∃ t, exec .holdRequest s = .next t ∧ t.bus.holdRequest = true ∧
      (s.bus.holder = none → t.bus.holder = some .hold) ∧
      (∀ u, s.bus.holder = some u → s.wantsBus u = true → t.bus.holder = some u) ∧
      t.slots = s.slots ∧ t.banks = s.banks ∧ t.port = s.port) ∧
    ∃ t, exec .holdRequestDrop s = .next t ∧ t.bus.holdRequest = false ∧ t.bus.holder ≠ some .hold ∧
      (∀ u, u ≠ .hold → s.bus.holder = some u → s.wantsBus u = true → t.bus.holder = some u) ∧
      (s.bus.holder = some .hold → s.wantsBus .store = true → t.bus.holder = some .store) ∧
      (s.bus.holder = some .hold → s.wantsBus .store = false → s.wantsBus .copy = true →
        s.wantsBus .fetcher = true →
        t.bus.holder = if s.bus.last = some .fetcher then some .copy else some .fetcher) ∧
      (s.bus.holder = some .hold → s.wantsBus .store = false → s.wantsBus .copy = true →
        s.wantsBus .fetcher = false → t.bus.holder = some .copy) ∧
      (s.bus.holder = some .hold → s.wantsBus .store = false → s.wantsBus .copy = false →
        s.wantsBus .fetcher = true → t.bus.holder = some .fetcher) ∧
      (s.bus.holder = some .hold → s.wantsBus .store = false → s.wantsBus .copy = false →
        s.wantsBus .fetcher = false → t.bus.holder = none) ∧
      t.slots = s.slots ∧ t.banks = s.banks ∧ t.port = s.port

/-- HOLD_READ under a granted hold delivers the word of a BOARD bank or of an unprotected CARTRIDGE bank, and FFFFh of a
protected or ABSENT bank; nothing else changes. Without the grant nothing changes (R153; the record of the word and the
read without a grant are the model's, log 27 and log 4). -/
def Obligations.HoldReadDeliversOneWord : Prop :=
  ∀ (s : State) (p : Fin 8) (offset : BitVec 18),
    (s.bus.holder = some .hold → exec (.holdRead p offset) s = .next { s with
      stationRead := some
        (if s.banks[p].prot then 0xFFFF#16
        else match s.banks[p].cartridge, s.banks[p].board with
          | some m, _ => readMemory m offset.toNat
          | none, some m => readMemory m offset.toNat
          | none, none => 0xFFFF#16) }) ∧
    (s.bus.holder ≠ some .hold → exec (.holdRead p offset) s = .next s)

/-- HOLD_WRITE under a granted hold: a guarded or a CARTRIDGE bank stores nothing and sets GUARD VIOLATION with the
position, the guard being tested first; an ABSENT bank that is not guarded stores nothing; a BOARD bank that is not
guarded stores the word and no other (R153). Without the grant nothing changes (the model's choice, log 4). -/
def Obligations.HoldWriteIsGuarded : Prop :=
  ∀ (s : State) (p : Fin 8) (offset : BitVec 18) (word : Word),
    (s.bus.holder = some .hold → guarded s.slots p = true ∨ s.banks[p].kind = .cartridge →
      exec (.holdWrite p offset word) s =
        .next { s with attention := { s.attention with guardViolation := some p } }) ∧
    (s.bus.holder = some .hold → guarded s.slots p = false → s.banks[p].kind = .absent →
      exec (.holdWrite p offset word) s = .next s) ∧
    (∀ m : Memory, s.bus.holder = some .hold → guarded s.slots p = false → s.banks[p].kind = .board →
      s.banks[p].board = some m → Memory.wf m →
      ∃ t m', exec (.holdWrite p offset word) s = .next t ∧ t.banks[p].board = some m' ∧
        readMemory m' offset.toNat = word ∧ (∀ a, a ≠ offset.toNat → readMemory m' a = readMemory m a) ∧
        (∀ q : Fin 8, q ≠ p → t.banks[q] = s.banks[q]) ∧ t.attention = s.attention ∧ t.slots = s.slots) ∧
    (s.bus.holder ≠ some .hold → exec (.holdWrite p offset word) s = .next s)

/-- PRESENCE_CHANGE: the socket takes its new contents and the protected attribute is set afresh; every slot whose image
lies there loses it (a LOADING slot's copy fails, a RESIDENT slot is withdrawn, a RETIRING slot stays), every other slot
and position stays; CARTRIDGE CHANGE is set with the position, and IMAGE LOST and INSTALL FAILED where a slot was affected
(R20, R147, R148, R150, R158). A READ STORE or WRITE STORE that holds the bus on the position ends BANK CHANGED, the words
a write has stored already kept (R150, R156). An outline fetch from the position ends with 0 words, its mirror entry
marked and the exposing galley flagged IMAGE LOST (R169). The model's own: the contents that the event brings with it (log
2, log 3), that an event which changes no socket changes nothing (log 4), how many words a write has stored (a free value,
log 10), and that a RETIRING slot which has lost its image counts as affected again (log 31). -/
def Obligations.PresenceChangeWithdrawsImages : Prop :=
  ∀ (s : State) (p : Fin 8) (socket : Socket) (contents : Option (List (Nat × Word))),
    ((s.banks[p].socket socket).isSome = contents.isSome → exec (.presenceChange p socket contents) s = .next s) ∧
    ((s.banks[p].socket socket).isSome ≠ contents.isSome →
      ∃ t, exec (.presenceChange p socket contents) s = .next t ∧
        t.banks[p].socket socket = contents.map memoryOf ∧
        (t.banks[p].prot = true ↔ ∃ m, t.banks[p].cartridge = some m ∧ readMemory m 0 = Config.protectMark) ∧
        (s.bus.holder ≠ some .store ∨ (∀ o ws, s.port.phase ≠ .acting (.write p o ws)) →
          ∀ other, other ≠ socket → t.banks[p].socket other = s.banks[p].socket other) ∧
        (∀ q : Fin 8, q ≠ p → t.banks[q] = s.banks[q]) ∧
        (∀ i : Fin 8, t.slots[i] =
          if s.slots[i].bank ≠ p.val then s.slots[i]
          else match s.slots[i].state with
            | .empty => s.slots[i]
            | .loading => emptySlotRecord
            | .resident =>
              if s.slots[i].refCount = 0 then emptySlotRecord
              else { s.slots[i] with state := .retiring, imageLost := true }
            | .retiring => { s.slots[i] with imageLost := true }) ∧
        t.attention.cartridgeChange = some (s.attention.cartridgeChange.getD 0#8 ||| (1#8 <<< p.val)) ∧
        ((∃ i : Fin 8, s.slots[i].bank = p.val ∧ (s.slots[i].state = .resident ∨ s.slots[i].state = .retiring)) →
          t.attention.imageLost = some (s.attention.imageLost.getD 0#8 ||| (1#8 <<< p.val))) ∧
        ((∀ i : Fin 8, s.slots[i].bank = p.val → s.slots[i].state ≠ .resident ∧ s.slots[i].state ≠ .retiring) →
          t.attention.imageLost = s.attention.imageLost) ∧
        ((∃ i : Fin 8, s.slots[i].bank = p.val ∧ s.slots[i].state = .loading) →
          t.attention.installFailed = some .bankChanged) ∧
        ((∀ i : Fin 8, s.slots[i].bank = p.val → s.slots[i].state ≠ .loading) →
          t.attention.installFailed = s.attention.installFailed) ∧
        (s.bus.holder = some .store → (∃ o n, s.port.phase = .acting (.read p o n)) →
          t.port = { s.port with phase := .responding [0x0405#16] } ∧ t.bus.holder ≠ some .store) ∧
        (∀ o ws, s.bus.holder = some .store → s.port.phase = .acting (.write p o ws) →
          t.port = { s.port with phase := .responding [0x0405#16] } ∧ t.bus.holder ≠ some .store ∧
          ∀ m : Memory, socket = .cartridge → s.banks[p].board = some m → Memory.wf m →
            o + ws.length ≤ Config.bankWords →
            ∃ (n : Nat) (m' : Memory), n ≤ ws.length ∧ t.banks[p].board = some m' ∧
              (∀ a, readMemory m' a = if o ≤ a ∧ a < o + n then ws.getD (a - o) 0#16 else readMemory m a) ∧
              (s.banks[p].kind ≠ .board ∨ guarded s.slots p = true → n = 0)) ∧
        (s.bus.holder ≠ some .store ∨
            ((∀ o n, s.port.phase ≠ .acting (.read p o n)) ∧ ∀ o ws, s.port.phase ≠ .acting (.write p o ws)) →
          t.port = s.port) ∧
        (∀ f, s.imaging.fetch = some f → s.imaging.unit = .sending →
          (f.bank ≠ p.val → t.imaging.fetch = some f ∧ t.imaging.out = s.imaging.out) ∧
          ∀ n void, f.bank = p.val → s.imaging.out = some { record := .loadOutline n none, void := void } →
            t.imaging.fetch = none ∧ t.imaging.out = some { record := .loadOutline n (some []), void := void } ∧
            t.bus.holder ≠ some .fetcher ∧ (∀ e ∈ t.imaging.mirror, e.entry = n → e.blank = true) ∧
            ∀ g r, s.imaging.galley = some g → s.table.records[g] = some r →
              ∃ r', t.table.records[g] = some r' ∧ hasFlag r'.flags .imageLost = true ∧ r'.lines = r.lines ∧
                r'.state = r.state) ∧
        t.classes = s.classes)

/-- OUTLINE_FETCH_DONE by the fetcher that holds the bus: the LOAD OUTLINE outstanding is completed with the words read
from the outline's place, a protected bank's true contents among them, and the fetch is over (R168, R148). -/
def Obligations.FetchDeliversTheOutline : Prop :=
  ∀ (s : State) (f : Fetch) (p : Fin 8) (n : Fin 64) (void : Bool), s.imaging.fetch = some f →
    s.bus.holder = some .fetcher → f.bank = p.val →
    s.imaging.out = some { record := .loadOutline n none, void := void } → s.imaging.unit = .sending →
    ∃ t ws, exec .outlineFetchDone s = .next t ∧
      t.imaging.out = some { record := .loadOutline n (some ws), void := void } ∧ ws.length = f.count ∧
      (∀ k, k < f.count → ws.getD k 0#16 = trueRead s.banks[p] (f.offset + k)) ∧
      t.imaging.fetch = none ∧ t.bus.holder ≠ some .fetcher ∧ t.imaging.mirror = s.imaging.mirror ∧
      t.slots = s.slots ∧ t.banks = s.banks

/-! ## Class list and characters -/

/-- LOAD_CLASS_LIST in READY: a list within its count and checks replaces the old one in one event and is answered DONE;
a count above 48 or an entry that fails its checks is answered BAD LIST and leaves the list (R32, R175). An entry passes
exactly when its priority is 0 to 3, its script 0 to 15, and its codes are listed (11.3). -/
def Obligations.ClassListIsReplacedWhole : Prop :=
  ∀ (s : State) (count : Word) (entries : List ClassWords), s.port.phase = .ready →
    (∀ list : List ClassEntry, count.toNat ≤ 48 → entries.length = count.toNat →
      entries.map readEntry = list.map some →
      exec (.loadClassList count entries) s = .next ({ s with classes := list }.respond [0x0100#16])) ∧
    (count.toNat ≤ 48 → entries.length = count.toNat → (∃ e ∈ entries, readEntry e = none) →
      exec (.loadClassList count entries) s = .next (s.respond [0x040C#16])) ∧
    (48 < count.toNat → exec (.loadClassList count []) s = .next (s.respond [0x040C#16])) ∧
    ∀ c : ClassWords, (readEntry c).isSome = true ↔
      (hiByte c.rankWord).toNat ≤ 3 ∧ (loByte c.rankWord).toNat ≤ 15 ∧ c.kindWord.toNat / 4096 ≤ 4 ∧
        c.kindWord.toNat / 256 % 16 ≤ 4 ∧ c.kindWord.toNat % 256 ≤ 1

/-- An entry covers a code when they agree in every bit of the care mask. The winning entry of a code covers it, and no
covering entry has a lower priority number or the same and an earlier place (R26). A code whose winner is ORDINARY takes
the winner's class, and one whose winner is SPACE is a word space in every respect (R28). A code that no entry covers takes
the default class; any covering entry wins over it (R27). The word space has its built-in class whatever the list (R28). -/
def Obligations.WinningEntryIsBestAndFirst : Prop :=
  ∀ (classes : List ClassEntry) (code : Word),
    (∀ e : ClassEntry, e.covers code = true ↔
      ∀ i, i < 16 → e.careMask.getLsbD i = true → code.getLsbD i = e.matchValue.getLsbD i) ∧
    (∀ e, winningEntry classes code = some e ↔
      ∃ i, classes[i]? = some e ∧ e.covers code = true ∧
        ∀ (j : Nat) (f : ClassEntry), classes[j]? = some f → f.covers code = true →
          e.priority < f.priority ∨ (e.priority = f.priority ∧ i ≤ j)) ∧
    (∀ e, winningEntry classes code = some e → code ≠ 0x0020#16 →
      (e.cls.brk = .ordinary → classify classes code = e.cls) ∧
      (e.cls.brk = .space → classify classes code = classify classes 0x0020#16)) ∧
    ((∀ e ∈ classes, e.covers code = false) → code ≠ 0x0020#16 →
      classify classes code = { script := 0, dir := .left, join := .none, brk := .ordinary }) ∧
    ((∃ e ∈ classes, e.covers code = true) → (winningEntry classes code).isSome = true) ∧
    classify classes 0x0020#16 = { script := 0, dir := .neutral, join := .none, brk := .space }

/-! ## Library port -/

/-- SET_LINK in READY: for a link 0 to 3, a listed rate and choices of 0 or 1, DONE is answered, and the receiver of that
link takes the rate, the enable choice and the stray choice; its ring, drop count, parser, measure slot and transmitter
and the other links are not touched. Any other value is BAD VALUE (R140, R136, R175; that a link already enabled keeps
its discard-pending flag, log 17). -/
def Obligations.SetLinkControlsOneReceiver : Prop :=
  ∀ (s : State) (link rate enable stray : Word), s.port.phase = .ready →
    (∀ (i : Fin 4) (r : Rate), link.toNat = i.val → rateOf rate = some r → enable.toNat ≤ 1 → stray.toNat ≤ 1 →
      ∃ t, exec (.setLink link rate enable stray) s = .next t ∧ t.port.phase = .responding [0x0100#16] ∧
        (∀ j : Fin 4, j ≠ i → t.links[j] = s.links[j]) ∧ t.links[i].setting = s.links[i].setting ∧
        t.links[i].measure = s.links[i].measure ∧ t.links[i].tx = s.links[i].tx ∧
        (let rx := s.links[i].rx
        let rx' := t.links[i].rx
        rx'.rate = r ∧ rx'.ring = rx.ring ∧ rx'.drop = rx.drop ∧
          rx'.stray = (if stray.toNat = 1 then 0 else rx.stray) ∧
          rx'.recv = (if enable.toNat = 1 then
              (if rx.recv = .disabled then (if rx.discardPending then .discard else .receiving) else rx.recv)
            else .disabled) ∧
          rx'.readyOut = (if enable.toNat = 1 then
              (if rx.recv = .disabled then decide (rx.ring.length ≤ 96) else rx.readyOut)
            else (if rx.recv = .disabled then rx.readyOut else false)) ∧
          rx'.pair = (if (enable.toNat = 1 ↔ rx.recv = .disabled) then .highNext else rx.pair) ∧
          rx'.discardPending = (if enable.toNat = 0 ∧ rx.recv ≠ .disabled then decide (rx.recv = .discard)
            else rx.discardPending)) ∧
        t.slots = s.slots ∧ t.table = s.table ∧ t.banks = s.banks) ∧
    ((3 < link.toNat ∨ rateOf rate = none ∨ 1 < enable.toNat ∨ 1 < stray.toNat) →
      exec (.setLink link rate enable stray) s = .next (s.respond [0x0404#16]))

/-- KILL_GALLEY in READY of a record that is allocated and not DONE acts by the galley's state: a RECEIVING, PRESSED, SET
or FAILED galley is DONE with outcome KILLED, its lines back in the pool and off the eligible list; an EXPOSING one has
its kill pending, its outcome fixed by the first kill (R116, R118, R123, R126). The parser that is setting the galley gives
up all it holds of it and leaves it: to SKIP from IN GALLEY, WAIT LINE and WAIT LIMIT, to HEADER from a wait for the close
of a galley that a GALLEY START has truncated, from IN MEASURE and WAIT MEASURE to SKIP when the request lets it (R56).
With a damage marker still due in that wait the header is completed at once (the model's reading, log 33). A KILL of a link
acts so on the earliest allocated galley of the link with its number that is not DONE, in the turn that takes the number,
and leaves the parser alone but for the SKIP of the galley being set (R53, R56). The reactions of the event follow. -/
def Obligations.KillGalleyActsByState : Prop :=
  (∀ (s : State) (index : Word) (g : Fin 32) (r : Galley), s.port.phase = .ready → index.toNat = g.val →
    s.table.records[g] = some r → r.state ≠ .done →
    let x := s.links[r.link].setting
    ∃ u : State, exec (.killGalley index) s = .next u.settle ∧
      u.port = { s.port with phase := .responding [0x0100#16] } ∧
      (r.state ≠ .exposing →
        u.table.records[g] = some { r with state := .done, outcome := .killed, lines := [], mark := true } ∧
        u.table.freeLines = s.table.freeLines + r.lines.length ∧ g ∉ u.table.eligible ∧
        (∀ h, h ≠ g → (h ∈ u.table.eligible ↔ h ∈ s.table.eligible))) ∧
      (r.state = .exposing →
        u.table.records[g] =
          some { r with killPending := true, outcome := if r.killPending then r.outcome else .killed } ∧
        u.table.freeLines = s.table.freeLines ∧ u.table.eligible = s.table.eligible) ∧
      u.links[r.link] = { s.links[r.link] with setting := u.links[r.link].setting } ∧
      (∀ j : Fin 4, j ≠ r.link → u.links[j] = s.links[j]) ∧
      (x.galley ≠ some g ∨ r.ended = true → u.links[r.link] = s.links[r.link]) ∧
      (x.markerDue = false →
        (∀ h : Fin 32, h ≠ g → u.table.records[h] = s.table.records[h]) ∧ u.table.order = s.table.order) ∧
      (x.galley = some g → r.ended = false →
        let y := u.links[r.link].setting
        let kept := x.parser = .inMeasure ∨ x.parser = .waitMeasure
        let waits := x.parser = .waitLine ∨ x.parser = .waitLimit
        let truncated := x.held.map (·.rest.brk) = some .galleyStart
        (kept ∨ x.parser = .inGalley ∨ (waits ∧ (truncated → x.markerDue = false)) →
          y.galley = none ∧ y.ctx = none ∧ y.stack = [] ∧ y.overflow = 0 ∧ y.extraLead = 0 ∧ y.buffer = [] ∧
          y.points = [] ∧ y.line = emptyLine ∧ y.held = none) ∧
        (x.parser = .inGalley ∨ (waits ∧ ¬ truncated) →
          y.parser = .skip ∧ y.pending = x.pending.map fun p => { p with passOver := true }) ∧
        (waits → truncated → x.markerDue = false →
          y.parser = .header ∧ y.header = [] ∧ y.heldFlags = 0#16 ∧ y.pending = none) ∧
        (waits → truncated → x.markerDue = true → y.parser = .inGalley ∨ y.parser = .waitRecord) ∧
        (x.parser = .inMeasure → y.parser = .inMeasure ∧ y.ret = .skip ∧ y.pending = x.pending) ∧
        (x.parser = .waitMeasure → y.parser = .waitMeasure ∧ y.resume = .skip ∧ y.pending = x.pending)) ∧
      u.slots = s.slots ∧ u.banks = s.banks ∧ u.classes = s.classes ∧ u.imaging = s.imaging) ∧
  ∀ (s : State) (i : Fin 4) (n : Word) (drop : Nat) (rest : List RingEntry) (g : Fin 32) (r : Galley),
    CommandTurn s i .kill [] (some n) drop rest → n ≠ 0#16 → Target s.table i n.toNat g →
    s.table.records[g] = some r →
    let x := s.links[i].setting
    ∃ u : State, exec .setterTurn s = .next u.settle ∧ TurnFrame s u i rest ∧
      u.links[i].rx.stray = strayAfter s i drop 0 ∧ u.links[i].measure = s.links[i].measure ∧
      GalleyKilled s.table u.table g r ∧
      (x.parser = .inGalley ∧ x.galley = some g ∧ r.ended = false →
        u.links[i].setting = { x with
          parser := .skip, pending := none, galley := none, ctx := none, stack := [], overflow := 0, extraLead := 0
          buffer := [], points := [], line := emptyLine, held := none, markerDue := false }) ∧
      (¬ (x.parser = .inGalley ∧ x.galley = some g ∧ r.ended = false) →
        u.links[i].setting = { x with pending := none })

/-- RESUME_GALLEY in READY of a FAILED galley makes it SET if it is ended and PRESSED if not, with the continuation flag,
at the tail of the eligible list if its class is not 0; its lines and counts stay (R124). SET_CLASS in READY sets the
class, above 3 taken as 3, and moves a PRESSED or SET galley on the eligible list (R118, R125, R126). Both answer DONE,
and the reactions of the event follow. A RESUME and a CLASS of a link act so on the earliest allocated galley of the link
with their number that is not DONE, in the turn that takes the last parameter, and a RESUME of a galley that is not FAILED
changes nothing of it (R53, R124). -/
def Obligations.ResumeAndSetClassMoveTheGalley : Prop :=
  (∀ (s : State) (index cls : Word) (g : Fin 32) (r : Galley), s.port.phase = .ready → index.toNat = g.val →
    s.table.records[g] = some r →
    (r.state = .failed → g ∉ s.table.eligible →
      ∃ u : State, exec (.resumeGalley index) s = .next u.settle ∧ u.port.phase = .responding [0x0100#16] ∧
        u.table.records[g] = some { r with state := if r.ended then .set else .pressed, continuation := true
                                           mark := r.mark || r.ended } ∧
        u.table.eligible = (if r.cls = 0 then s.table.eligible else s.table.eligible ++ [g]) ∧
        (∀ h : Fin 32, h ≠ g → u.table.records[h] = s.table.records[h]) ∧ u.table.freeLines = s.table.freeLines ∧
        u.links = s.links ∧ u.slots = s.slots ∧ u.imaging = s.imaging) ∧
    (r.state ≠ .done →
      ∃ u : State, exec (.setClass index cls) s = .next u.settle ∧ u.port.phase = .responding [0x0100#16] ∧
        u.table.records[g] = some { r with cls := min cls.toNat 3 } ∧
        u.table.eligible =
          (if r.state = .pressed ∨ r.state = .set then
            (if cls.toNat = 0 then s.table.eligible.filter (· ≠ g)
            else if g ∈ s.table.eligible then s.table.eligible else s.table.eligible ++ [g])
          else s.table.eligible) ∧
        (∀ h : Fin 32, h ≠ g → u.table.records[h] = s.table.records[h]) ∧ u.table.freeLines = s.table.freeLines ∧
        u.links = s.links ∧ u.slots = s.slots ∧ u.imaging = s.imaging)) ∧
  ∀ (s : State) (i : Fin 4) (n w : Word) (drop : Nat) (rest : List RingEntry) (g : Fin 32) (r : Galley),
    n ≠ 0#16 → Target s.table i n.toNat g → s.table.records[g] = some r →
    (CommandTurn s i .resume [] (some n) drop rest →
      ∃ u : State, exec .setterTurn s = .next u.settle ∧ TurnFrame s u i rest ∧
        u.links[i].rx.stray = strayAfter s i drop 0 ∧ u.links[i].measure = s.links[i].measure ∧
        u.links[i].setting = { s.links[i].setting with pending := none } ∧
        (r.state ≠ .failed → u.table = s.table) ∧
        (r.state = .failed → g ∉ s.table.eligible →
          u.table.records[g] = some { r with state := if r.ended then .set else .pressed, continuation := true
                                             mark := r.mark || r.ended } ∧
          u.table.eligible = (if r.cls = 0 then s.table.eligible else s.table.eligible ++ [g]) ∧
          (∀ h : Fin 32, h ≠ g → u.table.records[h] = s.table.records[h]) ∧ u.table.freeLines = s.table.freeLines ∧
          u.table.order = s.table.order)) ∧
    (CommandTurn s i .class [some n] (some w) drop rest →
      ∃ u : State, exec .setterTurn s = .next u.settle ∧ TurnFrame s u i rest ∧
        u.links[i].rx.stray = strayAfter s i drop 0 ∧ u.links[i].measure = s.links[i].measure ∧
        u.links[i].setting = { s.links[i].setting with pending := none } ∧
        u.table.records[g] = some { r with cls := min w.toNat 3 } ∧
        u.table.eligible =
          (if r.state = .pressed ∨ r.state = .set then
            (if w.toNat = 0 then s.table.eligible.filter (· ≠ g)
            else if g ∈ s.table.eligible then s.table.eligible else s.table.eligible ++ [g])
          else s.table.eligible) ∧
        (∀ h : Fin 32, h ≠ g → u.table.records[h] = s.table.records[h]) ∧ u.table.freeLines = s.table.freeLines ∧
        u.table.order = s.table.order)

/-- The galley commands in READY are refused NO GALLEY for an index above 31, a free record or a DONE one, and
RESUME_GALLEY NOT FAILED for any other galley that is not FAILED; the state is otherwise unchanged (R126). A KILL, RESUME or
CLASS of a link with a damaged parameter, with number 0 or without a target is passed over, each of its words a stray word
(R53). -/
def Obligations.GalleyCommandsAreRefused : Prop :=
  (∀ (s : State) (index cls : Word), s.port.phase = .ready →
    ((31 < index.toNat ∨ ∃ g : Fin 32, index.toNat = g.val ∧
        (s.table.records[g] = none ∨ ∃ r, s.table.records[g] = some r ∧ r.state = .done)) →
      exec (.killGalley index) s = .next (s.respond [0x0409#16]) ∧
      exec (.resumeGalley index) s = .next (s.respond [0x0409#16]) ∧
      exec (.setClass index cls) s = .next (s.respond [0x0409#16])) ∧
    ∀ (g : Fin 32) (r : Galley), index.toNat = g.val → s.table.records[g] = some r → r.state ≠ .done →
      r.state ≠ .failed → exec (.resumeGalley index) s = .next (s.respond [0x040A#16])) ∧
  ∀ (s : State) (i : Fin 4) (code : Code) (params : List (Option Word)) (first last : Option Word) (drop : Nat)
    (rest : List RingEntry), CommandTurn s i code params last drop rest →
    ((code = .kill ∨ code = .resume) ∧ params = [] ∧ first = last ∨ code = .class ∧ params = [first]) →
    (first = none ∨ last = none ∨ first = some 0#16 ∨
      ∃ n, first = some n ∧ ∀ g ∈ s.table.order, ¬ Names s.table i n.toNat g) →
    ∃ u : State, exec .setterTurn s = .next u.settle ∧ TurnFrame s u i rest ∧ u.table = s.table ∧
      u.links[i].rx.stray = strayAfter s i drop (params.length + 2) ∧ u.links[i].measure = s.links[i].measure ∧
      u.links[i].setting = { s.links[i].setting with pending := none }

/-- CLEAR_UNIT in READY: from FAULT with the ready line on, the mirror is emptied, CACHE CLEAR sent and the unit SENDING;
with the line off the unit is OFFLINE; both answer DONE, clear no cause and change nothing else, and the reactions of the
event follow, of the causes at most STORE STALLED set (R129). In any other state NOT FAULTED, and nothing else changes
(R172). -/
def Obligations.ClearUnitLeavesFault : Prop :=
  ∀ s : State, s.port.phase = .ready →
    (s.imaging.unit = .fault →
      ∀ u : State,
        u = { s with
          port := { s.port with phase := .responding [0x0100#16] }
          imaging := if s.imaging.ready then
              { s.imaging with mirror := [], unit := .sending, out := some { record := .cacheClear, void := false } }
            else { s.imaging with unit := .offline } } →
        exec .clearUnit s = .next u.settle ∧ u.settle.imaging = u.imaging ∧
          u.settle.attention = { s.attention with storeStalled := u.settle.attention.storeStalled } ∧
          (s.attention.storeStalled = true → u.settle.attention.storeStalled = true)) ∧
    (s.imaging.unit ≠ .fault → exec .clearUnit s = .next (s.respond [0x040B#16]))

/-- READ_STATUS in READY answers DONE with a length word and the fields of the section named, and changes nothing but the
port; a section above 5 is BAD VALUE (R157, R175; 11.3). Of three sections: how many words, and where fields of R22, R157
and R146 stand. -/
def Obligations.ReadStatusChangesOnlyThePort : Prop :=
  ∀ (s : State) (sec : Word), s.port.phase = .ready →
    (∀ fields, s.statusSection sec.toNat = some fields →
      exec (.readStatus sec) s = .next (s.respond (0x0100#16 :: natWord fields.length :: fields))) ∧
    ((s.statusSection sec.toNat).isSome = true ↔ sec.toNat ≤ 5) ∧
    (5 < sec.toNat → exec (.readStatus sec) s = .next (s.respond [0x0404#16])) ∧
    (∀ fields, s.statusSection 0 = some fields → fields.length = 96 ∧
      ∀ i : Fin 8, fields.getD (12 * i.val + 1) 0#16 = natWord s.slots[i].fontNumber ∧
        fields.getD (12 * i.val + 2) 0#16 = natWord s.slots[i].refCount ∧
        fields.getD (12 * i.val + 7) 0#16 = flagWord s.slots[i].imageLost) ∧
    (∀ fields, s.statusSection 1 = some fields → fields.length = 43 ∧
      ∀ i : Fin 8, fields.getD (5 * i.val + 3) 0#16 = flagWord s.banks[i].prot ∧
        fields.getD (5 * i.val + 4) 0#16 = flagWord (guarded s.slots i)) ∧
    ∀ fields, s.statusSection 3 = some fields → fields.length = 52 ∧
      ∀ i : Fin 4, fields.getD (13 * i.val + 5) 0#16 = natWord s.links[i].rx.ring.length ∧
        fields.getD (13 * i.val + 8) 0#16 = natWord s.links[i].rx.stray ∧
        fields.getD (13 * i.val + 9) 0#16 = natWord s.links[i].setting.parser.code

/-- ACKNOWLEDGE_ATTENTION in READY clears each cause named with its detail, leaves each other cause as it is, and answers
DONE; bits 8 to 15 are disregarded; naming all eight turns the attention line off (R158, R159, R175). -/
def Obligations.AcknowledgeClearsNamedCauses : Prop :=
  ∀ (s : State) (causes : Word), s.port.phase = .ready →
    ∃ t, exec (.acknowledgeAttention causes) s = .next t ∧ t.port.phase = .responding [0x0100#16] ∧
      t.attention.installDone = (if causes.getLsbD 0 then none else s.attention.installDone) ∧
      t.attention.installFailed = (if causes.getLsbD 1 then none else s.attention.installFailed) ∧
      t.attention.unitFault = (if causes.getLsbD 2 then none else s.attention.unitFault) ∧
      t.attention.unitTimeout = (if causes.getLsbD 3 then false else s.attention.unitTimeout) ∧
      t.attention.guardViolation = (if causes.getLsbD 4 then none else s.attention.guardViolation) ∧
      t.attention.cartridgeChange = (if causes.getLsbD 5 then none else s.attention.cartridgeChange) ∧
      t.attention.imageLost = (if causes.getLsbD 6 then none else s.attention.imageLost) ∧
      t.attention.storeStalled = (if causes.getLsbD 7 then false else s.attention.storeStalled) ∧
      (causes.toNat % 256 = 255 → t.attention.line = false) ∧
      t.slots = s.slots ∧ t.table = s.table ∧ t.links = s.links ∧ t.imaging = s.imaging ∧ t.banks = s.banks

/-- The port's words. BAD_COMMAND in READY is answered BAD COMMAND; a first word of a longer block, and a further word
that does not complete its block, are taken and the port is TAKING; the word that completes a block does what the row does
that offers the block whole in READY (R154). A row whose operands do not agree, or that comes in TAKING, is its words taken
one by one (the model's choice, log 5). RESPONSE_READ, the reading of the last word of the response (log 28), returns
RESPONDING to READY and changes no other state, but that the words which waited for the port are then taken in order (in the
same event, log 5); outside RESPONDING it has no effect (log 4). -/
def Obligations.PortTakesWordsOneByOne : Prop :=
  ∀ s : State,
    (∀ first, s.port.phase = .ready → namesCommand first = false →
      exec (.badCommand first) s = .next (s.respond [0x0401#16])) ∧
    (∀ w : Word, s.port.phase = .ready → 1 ≤ w.toNat → w.toNat ≤ 12 → w.toNat ≠ 10 →
      exec (.commandBlockWord w) s = .next (s.gather [w])) ∧
    (∀ (ws : List Word) (w : Word), s.port.phase = .taking ws → blockWhole (ws ++ [w]) = false →
      exec (.commandBlockWord w) s = .next (s.gather (ws ++ [w]))) ∧
    (∀ (ws : List Word) (w : Word), (s.port.phase = .ready ∧ ws = []) ∨ s.port.phase = .taking ws →
      blockWhole ws = false → blockWhole (ws ++ [w]) = true →
      exec (.commandBlockWord w) s =
        exec (readBlock (ws ++ [w])).instr { s with port := { s.port with phase := .ready } }) ∧
    (∀ c : LibCommand, (s.port.phase = .ready ∧ c.complete = false) ∨ (∃ ws, s.port.phase = .taking ws) →
      exec c.instr s = execAll (c.block.map Instr.commandBlockWord) s) ∧
    (∀ r, s.port.phase = .responding r →
      exec .responseRead s = execAll (s.port.offered.map Instr.commandBlockWord)
        { s with port := { phase := .ready, offered := [] } }) ∧
    ((∀ r, s.port.phase ≠ .responding r) → exec .responseRead s = .next s)

/-- In ACTING and RESPONDING no word is taken: a block offered whole or a single word leaves everything as it is but that
its words wait behind those that wait already, the strobe unanswered (R154; that they wait in order, log 5). -/
def Obligations.BusyPortTakesNoWord : Prop :=
  ∀ (s : State) (c : LibCommand) (w : Word),
    ((∃ op, s.port.phase = .acting op) ∨ ∃ r, s.port.phase = .responding r) →
    exec c.instr s = .next { s with port := { s.port with offered := s.port.offered ++ c.block } } ∧
      exec (.commandBlockWord w) s = .next { s with port := { s.port with offered := s.port.offered ++ [w] } } ∧
      ∀ t, exec c.instr s = .next t ∨ exec (.commandBlockWord w) s = .next t → t.port.strobe = true

/-- A command block and the command it spells are one: the words of a command whose operands agree read back to it, and
offered one by one from READY they do, with the last of them, exactly what the row does that offers the block whole
(R154; 11.3; that a row of the table is its whole block, log 5). -/
def Obligations.BlockWordsSpellTheirCommand : Prop :=
  ∀ c : LibCommand, c.complete = true →
    readBlock c.block = c ∧ blockWhole c.block = true ∧
      (∀ n, 0 < n → n < c.block.length → blockWhole (c.block.take n) = false) ∧
      ∀ s : State, s.port.phase = .ready → execAll (c.block.map Instr.commandBlockWord) s = exec c.instr s

/-! ## Composition links -/

/-- BYTE_RECEIVED on a link that watches its line: a byte with a framing error is held, a first byte is kept as the high
byte, a second completes the word, damaged if either byte was in error, and the word is offered to the ring; nothing
else of the state changes. On a DISABLED link nothing changes (R132, R133, R135). -/
def Obligations.BytesPairIntoWords : Prop :=
  ∀ (s : State) (i : Fin 4) (b : Byte) (pe fe : Bool),
    (s.links[i].rx.recv = .disabled → exec (.byteReceived i b pe fe) s = .next s) ∧
    (s.links[i].rx.recv ≠ .disabled → s.links[i].rx.framing = none → s.links[i].rx.breakLatch = false →
      ∃ rx, exec (.byteReceived i b pe fe) s = .next { s with links := s.links.set i { s.links[i] with rx := rx } } ∧
        (fe = true → rx = { s.links[i].rx with framing := some b }) ∧
        (fe = false → s.links[i].rx.pair = .highNext → rx = { s.links[i].rx with pair := .lowNext b (!pe) }) ∧
        ∀ high sound, fe = false → s.links[i].rx.pair = .lowNext high sound →
          rx = { s.links[i].rx with pair := .highNext }.offer
            (if sound = true ∧ pe = false then some (high ++ b) else none))

/-- A completed word offered to the ring: stored with room in RECEIVING; an overrun on a full ring, which marks the
tail entry and begins a discard of one; in DISCARD only GALLEY START or GALLEY END with room is stored, carrying the drop
count, and every other word is counted; nothing in DISABLED. The ready output goes off as the count reaches 224, and on
as a taking brings it to 96 (R134 to R138). -/
def Obligations.RingStoresMarksAndCounts : Prop :=
  ∀ (rx : Receiver) (w : Option Word),
    (rx.recv = .receiving → rx.ring.length < 256 →
      rx.offer w = { rx with ring := rx.ring ++ [{ code := w, marker := false, drop := 0 }]
                             readyOut := if rx.ring.length = 223 then false else rx.readyOut }) ∧
    (rx.recv = .receiving → 256 ≤ rx.ring.length →
      (rx.offer w).recv = .discard ∧ (rx.offer w).drop = 1 ∧ (rx.offer w).ring.length = rx.ring.length ∧
        (rx.offer w).ring.dropLast = rx.ring.dropLast ∧
        (rx.offer w).ring.getLast? = rx.ring.getLast?.map (fun e => { e with marker := true }) ∧
        (rx.offer w).readyOut = rx.readyOut) ∧
    (rx.recv = .discard → (w = some 0xFF01#16 ∨ w = some 0xFF02#16) → rx.ring.length < 256 →
      (rx.offer w).ring = rx.ring ++ [{ code := w, marker := false, drop := rx.drop }] ∧
        (rx.offer w).recv = .receiving ∧ (rx.offer w).drop = 0) ∧
    (rx.recv = .discard → (w ≠ some 0xFF01#16 ∧ w ≠ some 0xFF02#16) ∨ 256 ≤ rx.ring.length →
      rx.offer w = { rx with drop := min (rx.drop + 1) 65535 }) ∧
    (rx.recv = .disabled → rx.offer w = rx) ∧
    (rx.recv ≠ .disabled → rx.ring.length = 97 → rx.take.readyOut = true) ∧
    (rx.ring.length ≠ 97 → rx.take.readyOut = rx.readyOut) ∧ rx.take.ring = rx.ring.tail

/-- LINE_RETURN_TO_MARK: a byte held with a framing error is taken as a damaged byte of its pair, a first byte kept and a
second completing a damaged word that is offered to the ring, with overrun and discard as RingStoresMarksAndCounts has
them, and a break is over; no other state changes (R132, R133, R135, R139). A DISABLED link takes no byte. -/
def Obligations.ReturnToMarkTakesTheHeldByte : Prop :=
  ∀ (s : State) (i : Fin 4),
    let rx := s.links[i].rx
    (rx.framing = none ∨ rx.recv = .disabled → exec (.lineReturnToMark i) s =
      .next { s with links := s.links.set i { s.links[i] with rx := { rx with breakLatch := false } } }) ∧
    ∀ b, rx.framing = some b → rx.recv ≠ .disabled →
      (rx.pair = .highNext → exec (.lineReturnToMark i) s =
        .next { s with links := s.links.set i { s.links[i] with
          rx := { rx with framing := none, breakLatch := false, pair := .lowNext b false } } }) ∧
      ∀ high sound, rx.pair = .lowNext high sound → exec (.lineReturnToMark i) s =
        .next { s with links := s.links.set i { s.links[i] with
          rx := { rx with framing := none, breakLatch := false, pair := .highNext }.offer none } }

/-- BREAK, when it is recognised: the receiver is reset with its stray count, rate and enable kept, the setting context
and the measure slot are given up, the transmitter is not touched, and the current galley, its ended flag clear, is killed
ABANDONED; the other links stay. In DISABLED, and while the same break goes on, nothing happens (R58, R123, R139, R145,
R146). The latch that knows the same break is the model's reading of R139 (log 16), and the hyphen-ladder count and the
state that WAIT MEASURE goes back to take values that the model names (log 23). The reactions of the event follow. -/
def Obligations.BreakResetsItsLink : Prop :=
  ∀ (s : State) (i : Fin 4),
    ((s.links[i].rx.recv = .disabled ∨ s.links[i].rx.breakLatch = true) → exec (.breakSignal i) s = .next s) ∧
    (s.links[i].rx.recv ≠ .disabled → s.links[i].rx.breakLatch = false →
      ∃ u : State, exec (.breakSignal i) s = .next u.settle ∧
        u.links[i] = { s.links[i] with
          rx := { s.links[i].rx with pair := .highNext, framing := none, ring := [], drop := 0, recv := .receiving
                                     readyOut := true, breakLatch := true }
          setting := idleSetting, measure := .empty } ∧
        (∀ j : Fin 4, j ≠ i → u.links[j] = s.links[j]) ∧
        (s.links[i].setting.galley = none → u.table = s.table) ∧
        (∀ g r, s.links[i].setting.galley = some g → s.table.records[g] = some r →
          (r.ended = true → u.table = s.table) ∧
          (r.ended = false → (r.state = .receiving ∨ r.state = .pressed ∨ r.state = .failed) →
            u.table.records[g] = some { r with state := .done, outcome := .abandoned, lines := [], mark := true } ∧
            u.table.freeLines = s.table.freeLines + r.lines.length) ∧
          (r.ended = false → r.state = .exposing → r.killPending = false →
            u.table.records[g] = some { r with killPending := true, outcome := .abandoned } ∧
            u.table.freeLines = s.table.freeLines) ∧
          ∀ h : Fin 32, h ≠ g → u.table.records[h] = s.table.records[h]) ∧
        u.slots = s.slots ∧ u.classes = s.classes ∧ u.banks = s.banks ∧ u.port = s.port ∧ u.imaging = s.imaging)

/-- FRONT_END_READY_ON: an idle transmitter takes a waiting measure result before any report, else the marked record of
its link of lowest index, whose mark is cleared, from any state in which no event's work is left undone; a HELD one goes on
from the next byte. FRONT_END_READY_OFF leaves the byte in the shift register and the rest of the reply (R127, R143,
R144). -/
def Obligations.FrontEndReadyMovesReplies : Prop :=
  ∀ (s : State) (i : Fin 4),
    (∀ m, s.links[i].tx.state = .idle → s.links[i].measure = .waiting m →
      ∃ t, exec (.frontEndReadyOn i) s = .next t ∧ t.links[i].measure = .sending m ∧
        t.links[i].tx.state = .sending ∧ t.links[i].tx.feReady = true ∧ t.links[i].tx.reply = some .result ∧
        t.links[i].tx.shift = some 0x02#8 ∧ t.links[i].tx.buffer = (replyBytes (resultWords m)).tail) ∧
    (∀ g r, s.links[i].tx.state = .idle → (∀ m, s.links[i].measure ≠ .waiting m) → Settled s →
      s.table.records[g] = some r → r.link = i → r.mark = true →
      (∀ h : Fin 32, h < g → ∀ q, s.table.records[h] = some q → q.link = i → q.mark = false) →
      ∃ t, exec (.frontEndReadyOn i) s = .next t ∧ t.table.records[g] = some { r with mark := false } ∧
        t.links[i].tx.state = .sending ∧ t.links[i].tx.reply = some (.report g (decide (r.state = .done))) ∧
        t.links[i].tx.shift = some 0x01#8 ∧ t.links[i].tx.buffer = (replyBytes (reportWords g r)).tail ∧
        t.links[i].measure = s.links[i].measure) ∧
    (∀ b bs, s.links[i].tx.state = .held → s.links[i].tx.buffer = b :: bs →
      ∃ t, exec (.frontEndReadyOn i) s = .next t ∧ t.links[i].tx =
        { s.links[i].tx with feReady := true, state := .sending, shift := some b, buffer := bs }) ∧
    ∃ t, exec (.frontEndReadyOff i) s = .next t ∧ t.links[i].tx.feReady = false ∧
      t.links[i].tx.shift = s.links[i].tx.shift ∧ t.links[i].tx.buffer = s.links[i].tx.buffer ∧
      t.links[i].tx.reply = s.links[i].tx.reply ∧ t.links[i].measure = s.links[i].measure ∧
      (∀ j : Fin 4, j ≠ i → t.links[j] = s.links[j]) ∧ t.table = s.table ∧ t.slots = s.slots

/-- TRANSMIT_BYTE_SENT within a reply: the next byte moves to the shift register while the front end is ready, and the
transmitter is HELD while it is not. With the last byte of any reply, a measure result, a report or one cut by a library
reset (log 25), the transmitter is IDLE; a measure result empties a slot that is still RESULT SENDING and leaves any other
as it is, and only a final report changes more (R128, R142, R144). If the front end is ready the next reply is taken in the
event: a waiting result, else, from a state in which no event's work is left undone and after any reply but a final report,
the marked record of lowest index (R143, R144). -/
def Obligations.TransmitterSendsByteByByte : Prop :=
  ∀ (s : State) (i : Fin 4) (b : Byte), s.links[i].tx.shift = some b →
    (∀ c cs, s.links[i].tx.buffer = c :: cs → s.links[i].tx.feReady = true →
      exec (.transmitByteSent i) s = .next { s with
        links := s.links.set i { s.links[i] with tx := { s.links[i].tx with shift := some c, buffer := cs } } }) ∧
    (∀ c cs, s.links[i].tx.buffer = c :: cs → s.links[i].tx.feReady = false →
      exec (.transmitByteSent i) s = .next { s with
        links := s.links.set i { s.links[i] with tx := { s.links[i].tx with shift := none, state := .held } } }) ∧
    (∀ m, s.links[i].tx.buffer = [] → s.links[i].tx.reply = some .result → s.links[i].measure = .sending m →
      ∃ t, exec (.transmitByteSent i) s = .next t ∧ t.links[i].measure = .empty ∧ t.slots = s.slots) ∧
    (s.links[i].tx.buffer = [] →
      ∃ u : State, exec (.transmitByteSent i) s = .next u.settle ∧
        u.links[i] = { s.links[i] with
          tx := { state := .idle, shift := none, buffer := [], reply := none, feReady := s.links[i].tx.feReady }
          measure := u.links[i].measure } ∧
        (∀ m, s.links[i].tx.reply = some .result → s.links[i].measure = .sending m → u.links[i].measure = .empty) ∧
        (s.links[i].tx.reply ≠ some .result ∨ (∀ m, s.links[i].measure ≠ .sending m) →
          u.links[i].measure = s.links[i].measure) ∧
        ((∀ g, s.links[i].tx.reply ≠ some (.report g true)) → u = { s with links := u.links }) ∧
        (∀ j : Fin 4, j ≠ i → u.links[j] = s.links[j]) ∧
        (s.links[i].tx.feReady = false → u.settle.links[i] = u.links[i]) ∧
        (∀ m, s.links[i].tx.feReady = true → s.links[i].measure = .waiting m →
          u.settle.links[i].measure = .sending m ∧ u.settle.links[i].tx.state = .sending ∧
          u.settle.links[i].tx.reply = some .result ∧ u.settle.links[i].tx.shift = some 0x02#8 ∧
          u.settle.links[i].tx.buffer = (replyBytes (resultWords m)).tail) ∧
        ∀ g r, Settled s → s.links[i].tx.feReady = true → (∀ h, s.links[i].tx.reply ≠ some (.report h true)) →
          (∀ m, s.links[i].measure ≠ .waiting m) → s.table.records[g] = some r → r.link = i → r.mark = true →
          (∀ h : Fin 32, h < g → ∀ q, s.table.records[h] = some q → q.link = i → q.mark = false) →
          u.settle.table.records[g] = some { r with mark := false } ∧ u.settle.links[i].tx.state = .sending ∧
          u.settle.links[i].tx.reply = some (.report g (decide (r.state = .done))) ∧
          u.settle.links[i].tx.shift = some 0x01#8 ∧
          u.settle.links[i].tx.buffer = (replyBytes (reportWords g r)).tail)

/-- The last byte of a final report frees its record in the event: each slot of its font-use set loses 1 from its count, a
RETIRING slot at 0 becomes EMPTY, the record leaves the allocation order and is free (R12, R18, R128). -/
def Obligations.FinalReportFreesItsRecord : Prop :=
  ∀ (s : State) (i : Fin 4) (b : Byte) (g : Fin 32) (r : Galley), s.links[i].tx.shift = some b →
    s.links[i].tx.buffer = [] → s.links[i].tx.reply = some (.report g true) → s.table.records[g] = some r →
    r.useSet.Nodup →
    ∃ t, exec (.transmitByteSent i) s = .next t ∧ t.table.records[g] = none ∧ g ∉ t.table.order ∧
      (∀ k : Fin 8, t.slots[k] =
        if k ∈ r.useSet then
          (if s.slots[k].refCount - 1 = 0 ∧ s.slots[k].state = .retiring then emptySlotRecord
          else { s.slots[k] with refCount := s.slots[k].refCount - 1 })
        else s.slots[k]) ∧ t.banks = s.banks ∧ t.port = s.port

/-! ## The Setter -/

/-- SETTER_TURN serves the first link of the rotation that is not passed over, first, second, third or fourth, and its whole
effect is the Setter's work on that link, the rotation standing after it, and the reactions of the event; a link is passed
over while the condition that holds its parser stands or its ring is empty (R117; that a link passed over takes no turn of
the event, log 8); with every link passed over nothing changes. The work, for the link whose turn it is: a text word in IDLE
is a stray word, counted up to 65535, and raises nothing else (R50, R141). With no word being gathered, END PARAGRAPH, a quad
code and, on a line with elements, GALLEY END close the line, set by chapter 6, with their quad and flags and the advance of
the leading and the pending extra lead, and a record is asked for it; GALLEY END with an empty line ends the galley at once
(R46, R48, R87, R88). A line held in WAIT LINE or WAIT LIMIT is asked for again when its wait has ended (R114, R115). MEASURE
opens a request if the measure slot is EMPTY and waits otherwise (R54); its characters are gathered up to 64 (R55; that a
damaged one dropped sets TRUNCATED alone, log 32); MEASURE END puts its result into the slot (R55, R90, R91). -/
def Obligations.SetterServesLinksInRotation : Prop :=
  ∀ s : State,
    (∀ i : Fin 4, (s.bench i).turn = none ↔ PassedOver s i) ∧
    ((∀ i : Fin 4, PassedOver s i) → exec .setterTurn s = .next s) ∧
    (∀ (k i : Fin 4) (b : Bench), (∀ j : Fin 4, j < k → PassedOver s (s.rotation + j)) →
      i = s.rotation + k → (s.bench i).turn = some b →
      exec .setterTurn s = .next (State.settle { s with
        slots := b.slots, table := b.table, links := s.links.set i b.link, rotation := i + 1 })) ∧
    (∀ (w : Word) (rest : List RingEntry), s.links[s.rotation].setting.parser = .idle →
      s.links[s.rotation].setting.pending = none → 0x20 ≤ w.toNat → w.toNat < 0xFF00 →
      s.links[s.rotation].rx.ring = { code := some w, marker := false, drop := 0 } :: rest →
      ∃ t, exec .setterTurn s = .next t ∧ t.rotation = s.rotation + 1 ∧
        t.links[s.rotation].rx.ring = rest ∧
        t.links[s.rotation].rx.stray = min (s.links[s.rotation].rx.stray + 1) 65535 ∧
        t.links[s.rotation].setting = s.links[s.rotation].setting ∧ t.slots = s.slots ∧ t.classes = s.classes) ∧
    ∀ (i : Fin 4) (drop : Nat) (rest : List RingEntry), s.rotation = i →
      let x := s.links[i].setting
      (∀ (w : Word) (g : Fin 32) (r : Galley), WordTurn s i .inGalley (some w) drop rest → x.galley = some g →
        s.table.records[g] = some r → x.buffer = [] →
        (∀ brk quad flags, LineCode r w brk quad flags → (brk = .galleyEnd → x.line.elements ≠ []) →
          let set := setLine s.slots r.header x.line quad flags
          ∃ u : State, exec .setterTurn s = .next u.settle ∧ TurnFrame s u i rest ∧
            u.links[i].rx.stray = s.links[i].rx.stray ∧ u.links[i].measure = s.links[i].measure ∧
            RecordAsked s.table u.table { x with points := [] } u.links[i].setting g r
              { advance := (r.header.leading + x.extraLead) * 8, quad := quad, flags := { flags with loose := set.2 }
                glyphs := set.1 } brk) ∧
        (w = 0xFF02#16 → x.line.elements = [] →
          ∃ u : State, exec .setterTurn s = .next u.settle ∧ TurnFrame s u i rest ∧
            u.links[i].rx.stray = s.links[i].rx.stray ∧ u.links[i].measure = s.links[i].measure ∧
            GalleyEnded s.table u.table g r ∧ u.links[i].setting = x.ended)) ∧
      (∀ (line : ClosedLine) (brk : Break) (g : Fin 32) (r : Galley), x.galley = some g → s.table.records[g] = some r →
        (x.parser = .waitLine ∧ 0 < s.table.freeLines ∨ x.parser = .waitLimit ∧ ¬ AtLineLimit r) →
        x.held = some { line := line, rest := .closed brk } → brk ≠ .galleyStart → x.markerDue = false →
        ∃ u : State, exec .setterTurn s = .next u.settle ∧ TurnFrame s u i s.links[i].rx.ring ∧
          u.links[i].rx = s.links[i].rx ∧ u.links[i].measure = s.links[i].measure ∧
          RecordAsked s.table u.table x u.links[i].setting g r line brk) ∧
      (∀ (p : ParserState) (ret : ReturnState),
        (p = .idle ∧ ret = .idle ∨ p = .inGalley ∧ ret = .inGalley ∨ p = .skip ∧ ret = .skip) →
        WordTurn s i p (some 0xFF40#16) drop rest →
        (s.links[i].measure = .empty →
          ∃ (u : State) (q : MeasureRequest), exec .setterTurn s = .next u.settle ∧ TurnFrame s u i rest ∧
            u.table = s.table ∧ u.links[i].rx.stray = strayAfter s i drop 0 ∧
            u.links[i].measure = .gathering q ∧ q.taken = 0 ∧ q.chars = [] ∧ q.flags = 0#16 ∧
            u.links[i].setting = { x with parser := .inMeasure, ret := ret }) ∧
        (s.links[i].measure ≠ .empty →
          exec .setterTurn s = .next (State.settle { s with
            links := s.links.set i { s.links[i] with setting := { x with parser := .waitMeasure, resume := ret } }
            rotation := i + 1 }))) ∧
      ∀ q : MeasureRequest, s.links[i].measure = .gathering q → 4 ≤ q.taken →
        (∀ c : Option Word, (∀ w, c = some w → 0x20 ≤ w.toNat ∧ w.toNat < 0xFF00) →
          WordTurn s i .inMeasure c drop rest →
          ∃ (u : State) (q' : MeasureRequest), exec .setterTurn s = .next u.settle ∧ TurnFrame s u i rest ∧
            u.table = s.table ∧ u.links[i].rx.stray = s.links[i].rx.stray ∧ u.links[i].setting = x ∧
            u.links[i].measure = .gathering q' ∧ q' = { q with chars := q'.chars, flags := q'.flags } ∧
            q'.chars = (if q.chars.length < 64 then q.chars ++ [c] else q.chars) ∧
            ∀ f, hasFlag q'.flags f = true ↔ hasFlag q.flags f = true ∨
              (f = .charError ∧ q.chars.length < 64 ∧ c = none) ∨ (f = .truncated ∧ 64 ≤ q.chars.length)) ∧
        (WordTurn s i .inMeasure (some 0xFF41#16) drop rest →
          let words := (splitWords [] (q.entries s.classes)).map fun cs =>
            (shapeWord s.slots (resolveResident s.slots) cs []).1
          ∃ (u : State) (m : MeasureResult), exec .setterTurn s = .next u.settle ∧ TurnFrame s u i rest ∧
            u.table = s.table ∧ u.links[i].rx.stray = s.links[i].rx.stray ∧ u.links[i].measure = .waiting m ∧
            u.links[i].setting = { x with parser := x.ret.parser } ∧
            m.width = (words.map ShapedWord.width).sum + (words.length - 1) * ((q.space * q.setSize * 16 + 4) / 9) ∧
            m.glyphs = (words.map ShapedWord.elementCount).sum ∧
            m.missing = (words.map ShapedWord.missingCount).sum ∧
            (∀ f, hasFlag m.flags f = true ↔ hasFlag q.flags f = true ∨ (f = .fontMissing ∧ ¬ FontResident s q.font) ∨
              (f = .missingGlyph ∧ 0 < m.missing) ∨ (f = .markDropped ∧ ∃ w ∈ words, w.droppedMark = true)) ∧
            (q.chars = [] → m.width = 0 ∧ m.glyphs = 0 ∧ m.missing = 0))

/-- A header word taken in positions 1 to 16 is brought into its field's range, a change raising the held flag CLAMPED and a
damaged word CHAR ERROR and CLAMPED (R38, R39). The seventeenth completes a header: the lowest free record is allocated
RECEIVING to the link, with the fields gathered, the word spaces brought into order with CLAMPED, the held flags and its
report due, at the tail of the allocation order, and the parser is IN GALLEY with it and the context of the header; a font
number that no RESIDENT slot has leaves no current font and flags FONT MISSING (R38, R40, R41, R110, R111). With no free
record the parser holds the header in WAIT RECORD (R41). The reactions of the event follow. -/
def Obligations.CompleteHeaderAllocatesARecord : Prop :=
  ∀ (s : State) (i : Fin 4) (c : Option Word) (drop : Nat) (rest : List RingEntry), WordTurn s i .header c drop rest →
    let x := s.links[i].setting
    let field (n : Nat) : Nat := x.header.getD (n - 1) 0
    (∀ f : FieldRule, x.header.length < 16 → f = fieldRule (x.header.length + 1) →
      ∃ (u : State) (held : Word), exec .setterTurn s = .next u.settle ∧ TurnFrame s u i rest ∧ u.table = s.table ∧
        u.links[i].rx.stray = s.links[i].rx.stray ∧ u.links[i].measure = s.links[i].measure ∧
        u.links[i].setting = { x with header := x.header ++ [f.value c], heldFlags := held } ∧
        ∀ e, hasFlag held e = true ↔ hasFlag x.heldFlags e = true ∨ (e = .charError ∧ c = none) ∨
          (e = .clamped ∧ ∀ w, c = some w → f.outside w)) ∧
    (x.header.length = 16 → (∀ h : Fin 32, s.table.records[h] ≠ none) →
      ∃ u : State, exec .setterTurn s = .next u.settle ∧ TurnFrame s u i rest ∧ u.table = s.table ∧
        u.links[i].measure = s.links[i].measure ∧
        u.links[i].setting = { x with parser := .waitRecord, header := x.header ++ [hyphenField c]
                                      heldFlags := u.links[i].setting.heldFlags }) ∧
    ∀ g : Fin 32, x.header.length = 16 → s.table.records[g] = none →
      (∀ h : Fin 32, h < g → s.table.records[h] ≠ none) →
      ∃ (u : State) (r : Galley), exec .setterTurn s = .next u.settle ∧ TurnFrame s u i rest ∧
        u.links[i].rx.stray = s.links[i].rx.stray ∧ u.links[i].measure = s.links[i].measure ∧
        u.table.records[g] = some r ∧
        u.table.order = s.table.order ++ [g] ∧ (∀ h : Fin 32, h ≠ g → u.table.records[h] = s.table.records[h]) ∧
        u.table.freeLines = s.table.freeLines ∧ u.table.eligible = s.table.eligible ∧
        r = { newGalley i [] 0#16 with
          number := field 1, cls := field 2, deadline := field 3, flags := r.flags
          header :=
            { baseRight := decide (field 4 = 1)
              quad := if field 5 = 1 then .left else if field 5 = 2 then .right else if field 5 = 3 then .centre
                else .justify
              measure := field 6, leading := field 7, font := field 8, pointSize := field 9, setSize := field 10
              spaceMin := min (field 11) (field 12), spaceNormal := field 12
              spaceMax := max (field 13) (field 12), letterLimit := field 14, elongationLimit := field 15
              ladderLimit := field 16, hyphen := BitVec.ofNat 16 (hyphenField c) } } ∧
        r.link = i ∧ r.state = .receiving ∧ r.outcome = .none ∧ r.mark = true ∧ r.lines = [] ∧ r.useSet = [] ∧
        r.linesSet = 0 ∧ r.linesExposed = 0 ∧ r.missing = 0 ∧ r.ended = false ∧ r.killPending = false ∧
        r.continuation = false ∧ r.selected = false ∧
        (∀ e, hasFlag r.flags e = true ↔ hasFlag x.heldFlags e = true ∨ (e = .charError ∧ c = none) ∨
          (e = .clamped ∧ (c = none ∨ (∃ w, c = some w ∧ w ≠ 0#16 ∧ (w.toNat < 0x20 ∨ 0xFF00 ≤ w.toNat)) ∨
            field 12 < field 11 ∨ field 13 < field 12)) ∨
          (e = .fontMissing ∧ ¬ FontResident s (field 8))) ∧
        ∃ font : Option Nat, (FontResident s (field 8) → font = some (field 8)) ∧
          (¬ FontResident s (field 8) → font = none) ∧
          u.links[i].setting = { x with
            parser := .inGalley, galley := some g, header := [], heldFlags := 0#16
            ctx := some { font := font, pointSize := field 9, setSize := field 10, track := 0, ligatures := true }
            stack := [], overflow := 0, extraLead := 0, buffer := [], points := [], line := emptyLine, ladder := 0
            held := none }

/-- OPEN CONTEXT taken IN GALLEY saves the current context on a stack that holds fewer than 6, the current context
unchanged; on a full stack it raises the overflow count, up to 255, and flags the galley CONTEXT OVERFLOW, also at 255; a
stack of at most 6 stays one of at most 6 (R51). -/
def Obligations.OpenContextSavesTheContext : Prop :=
  ∀ (s : State) (e : RingEntry) (rest : List RingEntry) (g : Fin 32) (r : Galley) (c : Ctx),
    let i := s.rotation
    let x := s.links[i].setting
    x.parser = .inGalley → x.pending = none → x.galley = some g → x.ctx = some c → s.table.records[g] = some r →
    s.links[i].rx.ring = e :: rest → e.code = some 0xFF16#16 →
    ∃ t y r', exec .setterTurn s = .next t ∧ t.links[i].setting = y ∧ t.table.records[g] = some r' ∧
      (x.stack.length < 6 → y.stack = c :: x.stack ∧ y.overflow = x.overflow) ∧
      (6 ≤ x.stack.length → y.stack = x.stack ∧ y.overflow = min (x.overflow + 1) 255 ∧
        hasFlag r'.flags .contextOverflow = true) ∧
      (x.stack.length ≤ 6 → y.stack.length ≤ 6) ∧
      y.ctx = some c ∧ y.parser = .inGalley ∧ y.galley = some g ∧ y.buffer = x.buffer ∧ y.line = x.line

/-- The raise of a mark in dots is computed from its raise in units and its own point size, rounded away alike for both
signs; spacing and elongation glyphs have raise 0 (R108). -/
def Obligations.RaiseIsRoundedBothWays : Prop :=
  (∀ (raise : Int) (p : Nat),
    (0 ≤ raise → raiseDots raise p = (raise * p + 4) / 9) ∧
    (raise < 0 → raiseDots raise p = -((-raise * p + 4) / 9))) ∧
  raiseDots 144 192 = 3072 ∧
  (∀ (h : Header) (x b : Nat) (m : MarkElement), (placeMark h x b m).raise = raiseDots m.raise m.pointSize) ∧
  ∀ (h : Header) (x : Nat) (els : List (LineElement × Nat)), ∀ e ∈ placeElements h x els, e.markOf = false → e.raise = 0

/-- A line recorded with quad justify that has at least one word space, is not FORCED and is not marked PARAGRAPH END has
escapements that sum exactly to the measure, if it passed the fit test, its running values are those of its elements, and
its three word spaces are in order (R94 to R101). -/
def Obligations.JustifiedLineFillsTheMeasure : Prop :=
  ∀ (slots : Vector Slot 8) (h : Header) (line : LineAssembly) (flags : LineFlags),
    0 < line.spaces → line.spaces = line.elements.countP (fun e => decide (e = .space)) →
    line.glyphSum = (line.elements.map LineElement.base).sum →
    (∀ e ∈ line.elements, ∀ i g f p z, e ≠ .elongation i g f p z) →
    line.spaceMin ≤ line.spaceNormal → line.spaceNormal ≤ line.spaceMax →
    line.glyphSum + line.spaces * line.spaceMin ≤ h.fineMeasure →
    flags.forced = false → flags.paragraphEnd = false → flags.overset = false →
    (setByQuad slots h line .justify flags).width = h.fineMeasure

/-- Exposure order loses and adds no element: it is a rearrangement of the line. For base direction L an element that
resolves to L parts the line into two that are ordered each by itself, and a run that resolves to R is reversed. For base
direction R an element that resolves to R parts the line likewise, the later part coming first, and a run that resolves to
L keeps its order; so a run of L inside a line of R is read left to right between the two reversed parts (R104). -/
def Obligations.ExposureOrderRearrangesTheLine : Prop :=
  (∀ (baseRight : Bool) (xs : List (LineElement × Bool)), (exposureOrder baseRight xs).Perm (xs.map (·.1))) ∧
  (∀ (xs ys : List (LineElement × Bool)) (a : LineElement),
    exposureOrder false (xs ++ (a, false) :: ys) = exposureOrder false xs ++ a :: exposureOrder false ys ∧
    exposureOrder true (xs ++ (a, true) :: ys) = exposureOrder true ys ++ a :: exposureOrder true xs) ∧
  (∀ xs : List (LineElement × Bool), (∀ x ∈ xs, x.2 = true) →
    exposureOrder false xs = (xs.map (·.1)).reverse ∧ exposureOrder true xs = (xs.map (·.1)).reverse) ∧
  (∀ xs : List (LineElement × Bool), (∀ x ∈ xs, x.2 = false) →
    exposureOrder false xs = xs.map (·.1) ∧ exposureOrder true xs = xs.map (·.1)) ∧
  ∀ a b c : List (LineElement × Bool),
    ((∀ x ∈ a, x.2 = false) → (∀ x ∈ b, x.2 = true) → (∀ x ∈ c, x.2 = false) →
      exposureOrder false (a ++ b ++ c) = a.map (·.1) ++ (b.map (·.1)).reverse ++ c.map (·.1)) ∧
    ((∀ x ∈ a, x.2 = true) → (∀ x ∈ b, x.2 = false) → (∀ x ∈ c, x.2 = true) →
      exposureOrder true (a ++ b ++ c) = (c.map (·.1)).reverse ++ b.map (·.1) ++ (a.map (·.1)).reverse)

/-! ## Film -/

/-- A selection round chooses, of the galleys on the eligible list, the one of the lowest class, in class 2 the one of the
lowest deadline tag, and of equals the earliest in the list (R119). -/
def Obligations.SelectionChoosesTheFirstBest : Prop :=
  ∀ t : GalleyTable, (∀ g ∈ t.eligible, (t.records[g]).isSome = true) →
    (t.choose = none ↔ t.eligible = []) ∧
    ∀ (g : Fin 32) (r : Galley), t.records[g] = some r →
      (t.choose = some g ↔
        ∃ i, t.eligible[i]? = some g ∧
          ∀ (j : Nat) (h : Fin 32) (q : Galley), t.eligible[j]? = some h → t.records[h] = some q →
            r.cls < q.cls ∨ (r.cls = q.cls ∧ r.cls = 2 ∧ r.deadline < q.deadline) ∨
              (r.cls = q.cls ∧ (r.cls = 2 → r.deadline = q.deadline) ∧ i ≤ j))

/-- The ACK of CACHE CLEAR makes the unit READY; in the same event the selection round, if the eligible list gives a
galley, takes it off the list, makes it EXPOSING and sends its GALLEY OPEN (R119, R120, R163, R164). -/
def Obligations.AckOfCacheClearReadiesUnit : Prop :=
  ∀ s : State, s.imaging.out = some { record := .cacheClear, void := false } → s.imaging.galley = none →
    (s.table.choose = none →
      ∃ t, exec .unitAck s = .next t ∧ t.imaging = { s.imaging with unit := .ready, out := none } ∧ t.slots = s.slots ∧
        t.banks = s.banks ∧ t.port = s.port ∧ t.table.eligible = s.table.eligible) ∧
    ∀ g r, s.table.choose = some g → s.table.records[g] = some r →
      ∃ t r', exec .unitAck s = .next t ∧ t.imaging.unit = .sending ∧ t.imaging.galley = some g ∧
        t.imaging.out = some
          { record := .galleyOpen r.number r.link r.continuation (r.header.measure * 8), void := false } ∧
        t.imaging.mirror = s.imaging.mirror ∧ t.table.records[g] = some r' ∧
        r' = { r with state := .exposing, selected := true, mark := r'.mark } ∧ g ∉ t.table.eligible ∧
        t.table.freeLines = s.table.freeLines ∧ t.slots = s.slots ∧ t.banks = s.banks

/-- The ACK of GALLEY OPEN, and the ACK of a line's last record, which frees the line and counts it exposed, let the walk
go on in the same event; only the exposing galley's record changes (R116, R164, R165, R170). The reactions of the event
follow. -/
def Obligations.AckFreesLineAndWalkGoesOn : Prop :=
  ∀ (s : State) (g : Fin 32) (r : Galley) (o : Record), s.imaging.galley = some g → s.table.records[g] = some r →
    s.imaging.out = some { record := o, void := false } →
    (∀ n l c d, o = .galleyOpen n l c d →
      ∃ u : State, exec .unitAck s = .next u.settle ∧ u.table = s.table ∧ WalkGoesOn u.imaging r ∧
        u.imaging.mirror = s.imaging.mirror ∧ u.slots = s.slots ∧ u.links = s.links) ∧
    ∀ line rest, ((∃ d, o = .advance d) ∨ ∃ n x a p z, o = .exposeGlyph n x a p z) → r.lines = line :: rest →
      (∀ e ∈ line.glyphs.drop s.imaging.pos, e.slot = none) →
      ∃ u : State, exec .unitAck s = .next u.settle ∧
        u.table.records[g] = some { r with lines := rest, linesExposed := min (r.linesExposed + 1) 65535 } ∧
        u.table.freeLines = s.table.freeLines + 1 ∧ (∀ h : Fin 32, h ≠ g → u.table.records[h] = s.table.records[h]) ∧
        u.table.eligible = s.table.eligible ∧
        WalkGoesOn u.imaging { r with lines := rest, linesExposed := min (r.linesExposed + 1) 65535 } ∧
        u.imaging.galley = some g ∧ u.imaging.mirror = s.imaging.mirror ∧ u.slots = s.slots ∧ u.links = s.links

/-- Within a line, the ACK of the last glyph's record takes up the next entry that has a slot. A hit in the mirror exposes
it from its entry, which becomes most recent. A miss takes the lowest free unit entry, or evicts the least recent, and
begins LOAD OUTLINE: at once with 0 words for a slot that has lost its image, which marks the entry and flags the galley,
or for an outline of 0 words; else the fetcher is asked for it. The ACK of LOAD OUTLINE exposes its glyph (R164, R166,
R168). The reactions of the event follow. -/
def Obligations.WalkTakesUpTheNextGlyph : Prop :=
  ∀ (s : State) (g : Fin 32) (r : Galley) (line : LineRecord) (rest : List LineRecord) (o : Record),
    s.imaging.galley = some g → s.table.records[g] = some r → r.lines = line :: rest →
    s.imaging.out = some { record := o, void := false } → MirrorSound s.imaging.mirror →
    (∀ n ws p, o = .loadOutline n (some ws) → line.glyphs[s.imaging.pos - 1]? = some p →
      exec .unitAck s = .next (State.settle { s with imaging := { s.imaging with
        unit := .sending
        out := some { record := .exposeGlyph n p.x p.raise p.pointSize p.setSize, void := false } } })) ∧
    ∀ (pre post : List PlacedGlyph) (p : PlacedGlyph) (k : Fin 8),
      ((∃ d, o = .advance d) ∨ ∃ n x a q z, o = .exposeGlyph n x a q z) →
      line.glyphs.drop s.imaging.pos = pre ++ p :: post → (∀ e ∈ pre, e.slot = none) → p.slot = some k →
      ∃ (u : State) (q : Galley), exec .unitAck s = .next u.settle ∧ u.imaging.pos = s.imaging.pos + pre.length + 1 ∧
        u.imaging.unit = .sending ∧ u.table.records[g] = some q ∧ q = { r with flags := q.flags, mark := q.mark } ∧
        (∀ h : Fin 32, h ≠ g → u.table.records[h] = s.table.records[h]) ∧ u.table.freeLines = s.table.freeLines ∧
        u.slots = s.slots ∧ u.banks = s.banks ∧
        (∀ e ∈ s.imaging.mirror, e.slot = k → e.glyph = p.glyph →
          u.imaging.mirror = s.imaging.mirror.filter (·.entry ≠ e.entry) ++ [e] ∧
          u.imaging.out = some { record := .exposeGlyph e.entry p.x p.raise p.pointSize p.setSize, void := false } ∧
          (e.blank = true → hasFlag q.flags .imageLost = true) ∧ (e.blank = false → q = r)) ∧
        ((∀ e ∈ s.imaging.mirror, ¬ (e.slot = k ∧ e.glyph = p.glyph)) →
          ∃ (n : Fin 64) (kept : List MirrorEntry) (ws : Option (List Word)),
            u.imaging.mirror =
              kept ++ [{ entry := n, slot := k, glyph := p.glyph, blank := s.slots[k].imageLost }] ∧
            u.imaging.out = some { record := .loadOutline n ws, void := false } ∧
            (∀ f : Fin 64, (∀ e ∈ s.imaging.mirror, e.entry ≠ f) →
              kept = s.imaging.mirror ∧ n ≤ f ∧ ∀ e ∈ s.imaging.mirror, e.entry ≠ n) ∧
            ((∀ f : Fin 64, ∃ e ∈ s.imaging.mirror, e.entry = f) →
              ∃ e, s.imaging.mirror = e :: kept ∧ n = e.entry) ∧
            (s.slots[k].imageLost = true → ws = some [] ∧ hasFlag q.flags .imageLost = true) ∧
            (s.slots[k].imageLost = false → (outlineOf s.slots[k] p.glyph).count = 0 → ws = some [] ∧ q = r) ∧
            (s.slots[k].imageLost = false → (outlineOf s.slots[k] p.glyph).count ≠ 0 → ws = none ∧ q = r ∧
              u.imaging.fetch = some { slot := k, bank := s.slots[k].bank
                                       offset := (outlineOf s.slots[k] p.glyph).offset
                                       count := (outlineOf s.slots[k] p.glyph).count }))

/-- The ACK of KILL MARK sends GALLEY CLOSE. The ACK of GALLEY CLOSE makes the galley DONE, EXPOSED or with the outcome of
its kill, its report due, its remaining lines back in the pool, the unit READY and the walk without a galley (R121, R165,
R170). The reactions of the event follow. -/
def Obligations.AckOfCloseEndsGalley : Prop :=
  ∀ s : State,
    (s.imaging.out = some { record := .killMark, void := false } →
      exec .unitAck s = .next (State.settle { s with imaging := { s.imaging with
        unit := .sending, out := some { record := .galleyClose, void := false } } })) ∧
    ∀ (g : Fin 32) (r : Galley), s.imaging.out = some { record := .galleyClose, void := false } →
      s.imaging.galley = some g → s.table.records[g] = some r →
      ∃ u : State, exec .unitAck s = .next u.settle ∧
        u.table.records[g] = some { r with state := .done, outcome := if r.killPending then r.outcome else .exposed
                                           lines := [], mark := true } ∧
        u.table.freeLines = s.table.freeLines + r.lines.length ∧
        (∀ h : Fin 32, h ≠ g → u.table.records[h] = s.table.records[h]) ∧ u.table.order = s.table.order ∧
        u.imaging.unit = .ready ∧ u.imaging.out = none ∧ u.imaging.galley = none ∧
        u.imaging.mirror = s.imaging.mirror ∧ u.slots = s.slots ∧ u.links = s.links ∧ u.banks = s.banks

/-- A FAULT answer to a record that is not void, and the running out of its timer: the unit is FAULT with nothing
outstanding, UNIT FAULT is set with the kind or UNIT TIMEOUT, a fetch is abandoned and gives up the bus, the mirror is
kept, and the exposing galley is DONE or FAILED as its kill, its end and its lines decide (R122, R158, R162, R167, R171).
The reactions of the event follow. -/
def Obligations.FaultOrTimeoutFaultsUnit : Prop :=
  ∀ (s : State) (o : Record) (kind : FaultAnswer), s.imaging.out = some { record := o, void := false } →
    ∃ u v : State, exec (.unitFault kind) s = .next u.settle ∧ exec .recordTimeout s = .next v.settle ∧
      u.attention = { s.attention with unitFault := some (match kind with
        | .filmOut => .filmOut
        | .jam => .jam
        | .lamp => .lamp) } ∧
      v.attention = { s.attention with unitTimeout := true } ∧ v.table = u.table ∧ v.imaging = u.imaging ∧
      u.imaging = { s.imaging with unit := .fault, out := none, galley := none, pos := 0, inProgress := false
                                   fetch := none } ∧
      u.settle.bus.holder ≠ some .fetcher ∧ v.settle.bus.holder ≠ some .fetcher ∧
      (s.imaging.galley = none → u.table = s.table) ∧
      (∀ g r, s.imaging.galley = some g → s.table.records[g] = some r →
        u.table.records[g] = some
          (if r.killPending then { r with state := .done, lines := [], mark := true }
          else if r.ended = true ∧ r.lines = [] then { r with state := .done, outcome := .exposed, mark := true }
          else { r with state := .failed, mark := true }) ∧
        u.table.freeLines = s.table.freeLines + (if r.killPending then r.lines.length else 0) ∧
        ∀ h : Fin 32, h ≠ g → u.table.records[h] = s.table.records[h]) ∧
      u.slots = s.slots ∧ u.links = s.links ∧ u.banks = s.banks ∧ u.port = s.port ∧
      v.slots = s.slots ∧ v.links = s.links ∧ v.banks = s.banks ∧ v.port = s.port

/-- The answer to a void record, or the running out of its timer, raises no cause and changes no galley: in SENDING the
mirror is emptied and CACHE CLEAR sent, in OFFLINE nothing is outstanding any more (R163, R167, R173). -/
def Obligations.VoidRecordOnlyMakesWay : Prop :=
  ∀ (s : State) (o : Record) (kind : FaultAnswer), s.imaging.out = some { record := o, void := true } →
    ∀ u : State,
      u = { s with imaging :=
        if s.imaging.unit = .sending then
          { s.imaging with mirror := [], out := some { record := .cacheClear, void := false } }
        else { s.imaging with out := none } } →
      exec (.unitFault kind) s = .next u.settle ∧ exec .recordTimeout s = .next u.settle ∧
        (o.sentWhole = true → exec .unitAck s = .next u.settle)

/-- An answer with no record outstanding changes nothing, nor does an ACK before the last word of a LOAD OUTLINE is sent,
nor an answer word that is none of the four the unit may give (R162, R175). That this holds of an early ACK of a void record
too is DEDUCED (log 15), and that the timer's running out with nothing outstanding changes nothing is the model's choice (log
4). -/
def Obligations.AnswersOutOfPlaceAreIgnored : Prop :=
  ∀ s : State,
    (s.imaging.out = none →
      exec .unitAck s = .next s ∧ (∀ kind, exec (.unitFault kind) s = .next s) ∧ exec .recordTimeout s = .next s) ∧
    (∀ n void, s.imaging.out = some { record := .loadOutline n none, void := void } → exec .unitAck s = .next s) ∧
    ∀ w : Word, w ≠ 0x0000#16 → w ≠ 0x0101#16 → w ≠ 0x0102#16 → w ≠ 0x0103#16 →
      exec (.unitAnswerInvalid w) s = .next s

/-- UNIT_READY_ON in OFFLINE sends CACHE CLEAR with the mirror emptied, or goes on with the void record, the unit SENDING;
in any other state only the line changes. UNIT_READY_OFF outside OFFLINE is a fault of kind NOT READY by R171, but with a
void record outstanding only makes the unit OFFLINE (R163, R171, R173). That READY_ON with the line on and READY_OFF with
the line off change nothing is the model's choice (log 4). The reactions of the event follow. -/
def Obligations.UnitReadyLineCarriesService : Prop :=
  ∀ s : State,
    (s.imaging.ready = false → s.imaging.unit = .offline →
      exec .unitReadyOn s = .next (State.settle { s with imaging :=
        match s.imaging.out with
        | none => { s.imaging with ready := true, unit := .sending, mirror := []
                                   out := some { record := .cacheClear, void := false } }
        | some _ => { s.imaging with ready := true, unit := .sending } })) ∧
    (s.imaging.ready = false → s.imaging.unit ≠ .offline →
      exec .unitReadyOn s = .next { s with imaging := { s.imaging with ready := true } }) ∧
    (s.imaging.ready = true → exec .unitReadyOn s = .next s) ∧
    (s.imaging.ready = false → exec .unitReadyOff s = .next s) ∧
    (s.imaging.ready = true → s.imaging.unit = .offline →
      exec .unitReadyOff s = .next { s with imaging := { s.imaging with ready := false } }) ∧
    (∀ o, s.imaging.ready = true → s.imaging.unit ≠ .offline →
      s.imaging.out = some { record := o, void := true } →
      exec .unitReadyOff s = .next
        (State.settle { s with imaging := { s.imaging with ready := false, unit := .offline } })) ∧
    (s.imaging.ready = true → s.imaging.unit ≠ .offline → (∀ o, s.imaging.out = some o → o.void = false) →
      ∃ u : State, exec .unitReadyOff s = .next u.settle ∧
        u.attention = { s.attention with unitFault := some .notReady } ∧
        u.imaging = { s.imaging with ready := false, unit := .fault, out := none, galley := none, pos := 0
                                     inProgress := false, fetch := none } ∧
        (s.imaging.galley = none → u.table = s.table) ∧
        (∀ g r, s.imaging.galley = some g → s.table.records[g] = some r → r.killPending = false → r.lines ≠ [] →
          u.table.records[g] = some { r with state := .failed, mark := true } ∧
          u.table.freeLines = s.table.freeLines) ∧
        u.slots = s.slots ∧ u.links = s.links ∧ u.banks = s.banks ∧ u.port = s.port)

/-! ## Invariants of every step -/

/-- A step keeps the font store's contents in the one canonical form in which the model lists them. The form is the model's
own (log 2); the manual knows none. -/
def Obligations.StepKeepsStoreCanonical : Prop :=
  ∀ s t : State, StoreCanonical s → step s = .next t → StoreCanonical t

/-- A step keeps the cache mirror without two entries of one key or of one unit entry; and, with the Galley Table and the
Font Directory in order, without an entry whose key's slot is EMPTY, every slot that a galley's lines or its link's line use
being in its font-use set (R16, R66, R166, R167). -/
def Obligations.StepKeepsMirrorSound : Prop :=
  (∀ s t : State, MirrorSound s.imaging.mirror → step s = .next t → MirrorSound t.imaging.mirror) ∧
    ∀ s t : State, TableSound s → DirectorySound s → CountsSound s → UsesSound s → step s = .next t → UsesSound t

/-- After a step the bus is held by a user that has work for it, and free only when no user waits (R151). -/
def Obligations.StepKeepsBusSound : Prop :=
  ∀ s t : State, BusSound s → step s = .next t → BusSound t

/-- A step leaves nothing undone that its event must bring about (R119, R143, R154, R165; that waiting words are taken in the
event in which the port is READY, log 5). -/
def Obligations.StepKeepsSettled : Prop :=
  ∀ s t : State, Settled s → step s = .next t → Settled t

/-- A step keeps every link within its bounds (R36, R59, R61, R80, R134 to R144). -/
def Obligations.StepKeepsLinksSound : Prop :=
  ∀ s t : State, (∀ i : Fin 4, LinkSound s.links[i]) → step s = .next t → ∀ i : Fin 4, LinkSound t.links[i]

/-- A step keeps the Font Directory in order: one copy at most, one RESIDENT slot of a number, empty records for EMPTY
slots, and each reference count the number of galleys that use the slot (R1, R5, R9, R12, R16, R18). -/
def Obligations.StepKeepsDirectoryAndCounts : Prop :=
  ∀ s t : State, DirectorySound s → CountsSound s → step s = .next t → DirectorySound t ∧ CountsSound t

/-- A step keeps the Galley Table and Line Store in order: 512 line records accounted for, the eligible list as R118 has
it, one EXPOSING galley at most and that the walk's, a final report only of a DONE record, and current galleys that
receive copy (R111, R116, R118, R120, R128). -/
def Obligations.StepKeepsTableSound : Prop :=
  ∀ s t : State, TableSound s → step s = .next t → TableSound t

/-- What commands leave alone. The queue is left by every command (log 6), and the free-value counter only rises (log 26).
Bank contents, the station's last word (log 27), hold request and ready lines change only by the commands named; that
POWER_ON_RESET leaves these lines is log 3. A command that brings no word to the library port leaves the class list, all but
the Setter's turn leave the rotation, and a cause, once set, stays set; a receiver and a setting context change only by
the link's own events and the Setter's turn. A library command taken whole in READY changes slots, class list, rotation,
receivers, setting contexts and causes only if it is one of those named, and leaves the words that wait (log 5). -/
def Obligations.CommandsKeepOtherParts : Prop :=
  (∀ (c : Instr) (s t : State), exec c s = .next t →
    t.pending = s.pending ∧ s.free ≤ t.free ∧
    (bringsWords c s = false → c ≠ .powerOnReset →
      t.classes = s.classes ∧
      (c ≠ .setterTurn → t.rotation = s.rotation) ∧
      (c ≠ .responseRead → c ≠ .readStoreComplete → c ≠ .writeStoreComplete → (∀ p k m, c ≠ .presenceChange p k m) →
        t.port = s.port) ∧
      CausesKept s.attention t.attention ∧
      ∀ i : Fin 4, (∀ b pe fe, c ≠ .byteReceived i b pe fe) → c ≠ .lineReturnToMark i → c ≠ .breakSignal i →
        c ≠ .setterTurn → t.links[i].rx = s.links[i].rx ∧ t.links[i].setting = s.links[i].setting) ∧
    (c ≠ .powerOnReset → (∀ p o, c ≠ .holdRead p o) → t.stationRead = s.stationRead) ∧
    (c ≠ .powerOnReset → c ≠ .writeStoreComplete → (∀ p o w, c ≠ .holdWrite p o w) →
      (∀ p k m, c ≠ .presenceChange p k m) → t.banks = s.banks) ∧
    (c ≠ .holdRequest → c ≠ .holdRequestDrop → t.bus.holdRequest = s.bus.holdRequest) ∧
    (c ≠ .unitReadyOn → c ≠ .unitReadyOff → t.imaging.ready = s.imaging.ready) ∧
    ∀ i : Fin 4, c ≠ .frontEndReadyOn i → c ≠ .frontEndReadyOff i →
      t.links[i].tx.feReady = s.links[i].tx.feReady) ∧
  ∀ (c : LibCommand) (s t : State), s.port.phase = .ready → c.complete = true → exec c.instr s = .next t →
    t.port.offered = s.port.offered ∧
    ((∀ n l, c ≠ .loadClassList n l) → t.classes = s.classes) ∧
    (c ≠ .libraryReset →
      t.rotation = s.rotation ∧
      ((∀ b o, c ≠ .installFont b o) → t.copy = s.copy) ∧
      ((∀ b o, c ≠ .installFont b o) → (∀ n, c ≠ .retireFont n) → t.slots = s.slots) ∧
      ((∀ w, c ≠ .acknowledgeAttention w) → CausesKept s.attention t.attention) ∧
      ∀ i : Fin 4, ((∀ l r e k, c ≠ .setLink l r e k) → t.links[i].rx = s.links[i].rx) ∧
        ((∀ n, c ≠ .killGalley n) → t.links[i].setting = s.links[i].setting))
end

