-- ==== Sys2Proof/Laws/Bench.lean ====
section
/-! SUPPORT. The Setter's work on a link stays on that link: no operation of the Setter changes which link its view is of
(R117). -/

namespace Sys2Proof.Machine

/-! ## Line filling -/

@[simp] theorem Bench.withSetting_id (b : Bench) (f : Setting → Setting) : (b.withSetting f).id = b.id := rfl

@[simp] theorem Bench.goto_id (b : Bench) (p : ParserState) : (b.goto p).id = b.id := rfl

@[simp] theorem Bench.raise_id (b : Bench) (f : GalleyFlag) : (b.raise f).id = b.id := by
  unfold Bench.raise; split <;> rfl

@[simp] theorem Bench.raiseIf_id (b : Bench) (c : Bool) (f : GalleyFlag) : (b.raiseIf c f).id = b.id := by
  unfold Bench.raiseIf; split <;> simp

@[simp] theorem Bench.strays_id (b : Bench) (n : Nat) : (b.strays n).id = b.id := rfl

@[simp] theorem Bench.joinSlot_id (b : Bench) (g : Fin 32) (i : Fin 8) : (b.joinSlot g i).id = b.id := by
  unfold Bench.joinSlot; repeat' split
  all_goals rfl

@[simp] theorem Bench.joinSlots_id (b : Bench) (g : Fin 32) (l : List (Fin 8)) : (b.joinSlots g l).id = b.id := by
  induction l generalizing b with
  | nil => rfl
  | cons i l ih => simp [Bench.joinSlots, ih]

@[simp] theorem Bench.shape_id (b : Bench) (g : Fin 32) (cs : List CharEntry) (ps : List Nat) :
    (b.shape g cs ps).1.id = b.id := by simp [Bench.shape]

@[simp] theorem Bench.join_id (b : Bench) (g : Fin 32) (h : Header) (w : ShapedWord) (brk : Break) :
    (b.join g h w brk).id = b.id := rfl

@[simp] theorem Bench.takeRecord_id (b : Bench) (g : Fin 32) (h : HeldLine) : (b.takeRecord g h).1.id = b.id := by
  unfold Bench.takeRecord; repeat' split
  all_goals rfl

@[simp] theorem Bench.closeLine_id (b : Bench) (g : Fin 32) (h : Header) (q : Quad) (f : LineFlags) (rest : Rest) :
    (b.closeLine g h q f rest).1.id = b.id := by simp [Bench.closeLine]

@[simp] theorem Bench.tryPoints_id (b : Bench) (g : Fin 32) (h : Header) (w : ShapedWord) (ps : List Nat) :
    (b.tryPoints g h w ps).1.id = b.id := by
  induction ps generalizing b with
  | nil => rfl
  | cons p ps ih => simp only [Bench.tryPoints]; split <;> simp [ih]

@[simp] theorem Bench.forcedParts_id (b : Bench) (g : Fin 32) (w : ShapedWord) (p : Nat) :
    (b.forcedParts g w p).1.id = b.id := by simp [Bench.forcedParts]

@[simp] theorem Bench.tryPlaces_id (b : Bench) (g : Fin 32) (h : Header) (w : ShapedWord) (ps : List Nat) :
    (b.tryPlaces g h w ps).1.id = b.id := by
  induction ps generalizing b with
  | nil => rfl
  | cons p ps ih =>
    unfold Bench.tryPlaces
    dsimp only
    repeat' split
    all_goals simp [ih]

@[simp] theorem Bench.endGalley_id (b : Bench) (g : Fin 32) (start : Bool) : (b.endGalley g start).id = b.id := rfl

@[simp] theorem Bench.finishBreak_id (b : Bench) (g : Fin 32) (brk : Break) : (b.finishBreak g brk).id = b.id := by
  cases brk <;> rfl

@[simp] theorem Bench.fill_id (g : Fin 32) (h : Header) (fuel : Nat) (b : Bench) (rest : Rest) :
    (Bench.fill g h fuel b rest).id = b.id := by
  induction fuel generalizing b rest with
  | zero => rfl
  | succ n ih =>
    cases rest with
    | word w brk =>
      simp only [Bench.fill]
      repeat' split
      all_goals simp [ih]
    | breakDue brk =>
      cases brk <;> simp only [Bench.fill] <;> repeat' split
      all_goals simp [ih]
    | closed brk => simp [Bench.fill]

@[simp] theorem Bench.fillCurrent_id (b : Bench) (rest : Rest) : (b.fillCurrent rest).id = b.id := by
  unfold Bench.fillCurrent; repeat' split
  all_goals simp

@[simp] theorem Bench.closeWord_id (b : Bench) (brk : Break) : (b.closeWord brk).id = b.id := by
  unfold Bench.closeWord
  dsimp only
  split <;> simp

@[simp] theorem Bench.releaseLine_id (b : Bench) : b.releaseLine.id = b.id := by
  unfold Bench.releaseLine
  dsimp only
  repeat' split
  all_goals simp

/-! ## The parser -/

@[simp] theorem Bench.allocate_id (b : Bench) (g : Fin 32) : (b.allocate g).id = b.id := by simp [Bench.allocate]

@[simp] theorem Bench.completeHeader_id (b : Bench) : b.completeHeader.id = b.id := by
  unfold Bench.completeHeader
  dsimp only
  split <;> simp

@[simp] theorem Bench.takeHeader_id (b : Bench) (w : Option Word) : (b.takeHeader w).id = b.id := by
  unfold Bench.takeHeader
  dsimp only
  split <;> simp

@[simp] theorem Bench.damageHeader_id (b : Bench) : b.damageHeader.id = b.id := by simp [Bench.damageHeader]

@[simp] theorem Bench.openHeader_id (b : Bench) : b.openHeader.id = b.id := rfl

@[simp] theorem Bench.openMeasure_id (b : Bench) : b.openMeasure.id = b.id := rfl

@[simp] theorem Bench.withRequest_id (b : Bench) (f : MeasureRequest → MeasureRequest) :
    (b.withRequest f).id = b.id := rfl

@[simp] theorem Bench.closeMeasure_id (b : Bench) : b.closeMeasure.id = b.id := rfl

@[simp] theorem Bench.flagRequest_id (b : Bench) (f : GalleyFlag) : (b.flagRequest f).id = b.id := rfl

@[simp] theorem Bench.actMarker_id (b : Bench) : b.actMarker.id = b.id := by
  unfold Bench.actMarker
  dsimp only
  split <;> simp

@[simp] theorem Bench.actDueMarker_id (b : Bench) : b.actDueMarker.id = b.id := by
  unfold Bench.actDueMarker; split <;> simp

@[simp] theorem Bench.killParser_id (b : Bench) : b.killParser.id = b.id := by
  unfold Bench.killParser
  dsimp only
  repeat' split
  all_goals simp

@[simp] theorem Bench.killGalley_id (b : Bench) (g : Fin 32) : (b.killGalley g).id = b.id := by
  unfold Bench.killGalley
  dsimp only
  repeat' split
  all_goals simp

@[simp] theorem Bench.galleyCommand_id (b : Bench) (code : Code) (params : List (Option Word)) :
    (b.galleyCommand code params).id = b.id := by
  unfold Bench.galleyCommand
  dsimp only
  repeat' split
  all_goals simp

@[simp] theorem Bench.withCtx_id (b : Bench) (f : Ctx → Ctx) : (b.withCtx f).id = b.id := rfl

@[simp] theorem Bench.damagedParam_id (b : Bench) : b.damagedParam.id = b.id := by simp [Bench.damagedParam]

@[simp] theorem Bench.setFont_id (b : Bench) (w : Option Word) : (b.setFont w).id = b.id := by
  unfold Bench.setFont
  dsimp only
  split <;> split <;> simp

@[simp] theorem Bench.clampParam_id (b : Bench) (w : Option Word) (clamp : Nat → Nat × Bool) (d : Nat) :
    (b.clampParam w clamp d).1.id = b.id := by cases w <;> simp [Bench.clampParam]

@[simp] theorem Bench.setTrack_id (b : Bench) (w : Option Word) : (b.setTrack w).id = b.id := by
  cases w <;> simp [Bench.setTrack]

@[simp] theorem Bench.addExtraLead_id (b : Bench) (w : Option Word) : (b.addExtraLead w).id = b.id := by
  simp [Bench.addExtraLead]

@[simp] theorem Bench.actParams_id (b : Bench) (code : Code) (params : List (Option Word)) :
    (b.actParams code params).id = b.id := by cases code <;> simp [Bench.actParams]

@[simp] theorem Bench.openContext_id (b : Bench) : b.openContext.id = b.id := by
  unfold Bench.openContext
  dsimp only
  split <;> simp

@[simp] theorem Bench.closeContext_id (b : Bench) : b.closeContext.id = b.id := by
  unfold Bench.closeContext
  dsimp only
  repeat' split
  all_goals simp

@[simp] theorem Bench.hyphenPoint_id (b : Bench) : b.hyphenPoint.id = b.id := rfl

@[simp] theorem Bench.appendChar_id (b : Bench) (c : CharEntry) : (b.appendChar c).id = b.id := by
  unfold Bench.appendChar
  dsimp only
  split <;> simp

@[simp] theorem Bench.takeText_id (b : Bench) (w : Word) : (b.takeText w).id = b.id := by
  unfold Bench.takeText
  dsimp only
  split <;> simp

@[simp] theorem Bench.takeDamaged_id (b : Bench) : b.takeDamaged.id = b.id := by simp [Bench.takeDamaged]

@[simp] theorem Bench.pend_id (b : Bench) (code : Code) (passOver : Bool) : (b.pend code passOver).id = b.id := by
  unfold Bench.pend; split <;> simp

@[simp] theorem Bench.codeInGalley_id (b : Bench) (c : Code) : (b.codeInGalley c).id = b.id := by
  cases c <;> simp [Bench.codeInGalley]

@[simp] theorem Bench.codeInIdle_id (b : Bench) (c : Code) : (b.codeInIdle c).id = b.id := by
  cases c <;> simp [Bench.codeInIdle]

@[simp] theorem Bench.codeInSkip_id (b : Bench) (c : Code) : (b.codeInSkip c).id = b.id := by
  cases c <;> simp [Bench.codeInSkip]

@[simp] theorem Bench.takeCode_id (b : Bench) (c : Code) : (b.takeCode c).id = b.id := by
  unfold Bench.takeCode; split <;> simp

@[simp] theorem Bench.sortInIdle_id (b : Bench) (w : Option Word) : (b.sortInIdle w).id = b.id := by
  unfold Bench.sortInIdle; split <;> simp

@[simp] theorem Bench.sortInGalley_id (b : Bench) (w : Option Word) : (b.sortInGalley w).id = b.id := by
  unfold Bench.sortInGalley; split <;> simp

@[simp] theorem Bench.sortInSkip_id (b : Bench) (w : Option Word) : (b.sortInSkip w).id = b.id := by
  unfold Bench.sortInSkip; split <;> simp

@[simp] theorem Bench.sortInMeasure_id (b : Bench) (w : Option Word) : (b.sortInMeasure w).id = b.id := by
  unfold Bench.sortInMeasure; split <;> simp

@[simp] theorem Bench.takeParam_id (b : Bench) (p : PendingCode) (w : Option Word) : (b.takeParam p w).id = b.id := by
  unfold Bench.takeParam
  dsimp only
  repeat' split
  all_goals simp

@[simp] theorem Bench.dealOutsideHeader_id (b : Bench) (w : Option Word) : (b.dealOutsideHeader w).id = b.id := by
  unfold Bench.dealOutsideHeader; repeat' split
  all_goals simp

@[simp] theorem Bench.dealWord_id (b : Bench) (w : Option Word) : (b.dealWord w).id = b.id := by
  unfold Bench.dealWord; repeat' split
  all_goals simp

@[simp] theorem Bench.takeEntry_id (b : Bench) (e : RingEntry) : (b.takeEntry e).id = b.id := by
  unfold Bench.takeEntry
  dsimp only
  repeat' split
  all_goals simp

/-- The Setter's turn works on the link it was given. -/
theorem Bench.turn_id {b b' : Bench} (h : b.turn = some b') : b'.id = b.id := by
  unfold Bench.turn at h
  repeat' split at h
  all_goals simp only [Option.map_eq_some_iff, Option.some.injEq, reduceCtorEq] at h
  all_goals first
    | (subst h; simp)
    | (obtain ⟨_, _, rfl⟩ := h; simp)

end Sys2Proof.Machine
end

