-- ==== Sys2Proof/Laws/Copy.lean ====
section
/-! SUPPORT. What the install copy makes of the next table entry of an image (R6, R7; 11.5). -/

namespace Sys2Proof.Machine

/-- The reading of a table entry gives what the checks of R7 say of it. -/
theorem EntryRead.addTableEntry_eq {h : List Word} {x : Slot} {w w' : Nat → Word} {r : Except InstallReason Slot}
    (hr : EntryRead h x w r) (hu : x.outlines.length < headerWord h 1) (hw : ∀ n < imageLength h, w' n = w n) :
    addTableEntry h x w' = r := by
  unfold imageLength at hw
  cases hr with
  | width a hl ha h1 =>
    subst ha
    rw [addTableEntry, if_pos hl]
    dsimp only
    rw [hw _ (by omega)]
    exact if_pos h1
  | widthFails a hl ha h1 =>
    subst ha
    rw [addTableEntry, if_pos hl]
    dsimp only
    rw [hw _ (by omega)]
    exact if_neg (Nat.not_le.2 h1)
  | codeMap a hf hl ha h1 =>
    subst ha
    rw [addTableEntry, if_neg (by have := hf.widths; omega), if_pos hl]
    dsimp only
    rw [hw _ (by omega), hw _ (by omega), hw _ (by omega), hw _ (by omega), hw _ (by omega)]
    exact if_pos h1
  | codeMapFails a hf hl ha h1 =>
    subst ha
    rw [addTableEntry, if_neg (by have := hf.widths; omega), if_pos hl]
    dsimp only
    rw [hw _ (by omega), hw _ (by omega), hw _ (by omega), hw _ (by omega), hw _ (by omega)]
    exact if_neg (fun ⟨p, q, r, s⟩ => by
      rcases h1 with h1 | h1 | h1 | h1
      · exact absurd p (Nat.not_lt.2 h1)
      · exact absurd q (Nat.not_lt.2 h1)
      · exact absurd r (Nat.not_lt.2 h1)
      · exact absurd s (Nat.not_lt.2 h1))
  | kern a hf hl ha h1 h2 h3 h4 =>
    subst ha
    rw [addTableEntry, if_neg (by have := hf.widths; omega), if_neg (by have := hf.codeMap; omega), if_pos hl]
    dsimp only
    rw [hw _ (by omega), hw _ (by omega), hw _ (by omega)]
    exact if_pos ⟨h1, h2, h3, h4⟩
  | kernFails a hf hl ha h1 =>
    subst ha
    rw [addTableEntry, if_neg (by have := hf.widths; omega), if_neg (by have := hf.codeMap; omega), if_pos hl]
    dsimp only
    rw [hw _ (by omega), hw _ (by omega), hw _ (by omega)]
    exact if_neg (fun ⟨p, q, r, s⟩ => by
      rcases h1 with h1 | h1 | h1 | h1
      · exact Bool.false_ne_true (h1.symm.trans p)
      · exact Bool.false_ne_true (h1.symm.trans q)
      · exact absurd r (Int.not_le.2 h1)
      · exact absurd s (Int.not_le.2 h1))
  | ligature a hf hl ha h1 h2 h3 h4 =>
    subst ha
    rw [addTableEntry, if_neg (by have := hf.widths; omega), if_neg (by have := hf.codeMap; omega),
      if_neg (by have := hf.kerns; omega), if_pos hl]
    dsimp only
    rw [hw _ (by omega), hw _ (by omega), hw _ (by omega), hw _ (by omega)]
    exact if_pos ⟨h1, h2, h3, h4⟩
  | ligatureFails a hf hl ha h1 =>
    subst ha
    rw [addTableEntry, if_neg (by have := hf.widths; omega), if_neg (by have := hf.codeMap; omega),
      if_neg (by have := hf.kerns; omega), if_pos hl]
    dsimp only
    rw [hw _ (by omega), hw _ (by omega), hw _ (by omega), hw _ (by omega)]
    exact if_neg (fun ⟨p, q, r, s⟩ => by
      rcases h1 with h1 | h1 | h1 | h1
      · exact Bool.false_ne_true (h1.symm.trans p)
      · exact Bool.false_ne_true (h1.symm.trans q)
      · exact absurd r (Nat.not_lt.2 h1)
      · exact Bool.false_ne_true (h1.symm.trans s))
  | mark a hf hl ha h1 h2 h3 =>
    subst ha
    rw [addTableEntry, if_neg (by have := hf.widths; omega), if_neg (by have := hf.codeMap; omega),
      if_neg (by have := hf.kerns; omega), if_neg (by have := hf.ligatures; omega), if_pos hl]
    dsimp only
    rw [hw _ (by omega), hw _ (by omega)]
    exact if_pos ⟨h1, h2, h3⟩
  | markFails a hf hl ha h1 =>
    subst ha
    rw [addTableEntry, if_neg (by have := hf.widths; omega), if_neg (by have := hf.codeMap; omega),
      if_neg (by have := hf.kerns; omega), if_neg (by have := hf.ligatures; omega), if_pos hl]
    dsimp only
    rw [hw _ (by omega), hw _ (by omega)]
    exact if_neg (fun ⟨p, q, r⟩ => by
      rcases h1 with h1 | h1 | h1
      · exact Bool.false_ne_true (h1.symm.trans p)
      · exact absurd q (Int.not_le.2 h1)
      · exact absurd r (Int.not_le.2 h1))
  | outline a hf hl ha h1 h2 =>
    subst ha
    rw [addTableEntry, if_neg (by have := hf.widths; omega), if_neg (by have := hf.codeMap; omega),
      if_neg (by have := hf.kerns; omega), if_neg (by have := hf.ligatures; omega), if_neg (by have := hf.marks; omega)]
    dsimp only
    rw [hw _ (by omega), hw _ (by omega), hw _ (by omega)]
    exact (if_neg (Nat.not_lt.2 h1)).trans (if_neg (Nat.not_lt.2 h2))
  | outlineFails a hf hl ha h1 =>
    subst ha
    rw [addTableEntry, if_neg (by have := hf.widths; omega), if_neg (by have := hf.codeMap; omega),
      if_neg (by have := hf.kerns; omega), if_neg (by have := hf.ligatures; omega), if_neg (by have := hf.marks; omega)]
    dsimp only
    rw [hw _ (by omega), hw _ (by omega), hw _ (by omega)]
    exact if_pos h1
  | outlineOutside a hf hl ha h1 h2 =>
    subst ha
    rw [addTableEntry, if_neg (by have := hf.widths; omega), if_neg (by have := hf.codeMap; omega),
      if_neg (by have := hf.kerns; omega), if_neg (by have := hf.ligatures; omega), if_neg (by have := hf.marks; omega)]
    dsimp only
    rw [hw _ (by omega), hw _ (by omega), hw _ (by omega)]
    exact (if_neg (Nat.not_lt.2 h1)).trans (if_pos h2)

end Sys2Proof.Machine
end

