-- ==== Sys2Proof/Laws/State.lean ====
section
/-! SUPPORT. One lemma for each field of State under each named update of it, and the entries of a changed vector. -/

namespace Sys2Proof.Machine

@[simp] theorem modifyAt_same {α : Type} {n : Nat} (v : Vector α n) (i : Fin n) (f : α → α) :
    (modifyAt v i f)[i] = f v[i] := by
  simp [modifyAt]

theorem modifyAt_other {α : Type} {n : Nat} (v : Vector α n) {i j : Fin n} (h : i ≠ j) (f : α → α) :
    (modifyAt v i f)[j] = v[j] := by
  have h' : (i : Nat) ≠ j := fun e => h (Fin.ext e)
  simp [modifyAt, h']

theorem set_other {α : Type} {n : Nat} (v : Vector α n) {i j : Fin n} (h : i ≠ j) (x : α) :
    (v.set i x)[j] = v[j] := by
  have h' : (i : Nat) ≠ j := fun e => h (Fin.ext e)
  simp [h']

/-! ### State.respond -/

@[simp] theorem State.respond_slots (s : State) (r : List Word) : (s.respond r).slots = s.slots := rfl
@[simp] theorem State.respond_copy (s : State) (r : List Word) : (s.respond r).copy = s.copy := rfl
@[simp] theorem State.respond_classes (s : State) (r : List Word) : (s.respond r).classes = s.classes := rfl
@[simp] theorem State.respond_table (s : State) (r : List Word) : (s.respond r).table = s.table := rfl
@[simp] theorem State.respond_links (s : State) (r : List Word) : (s.respond r).links = s.links := rfl
@[simp] theorem State.respond_rotation (s : State) (r : List Word) : (s.respond r).rotation = s.rotation := rfl
@[simp] theorem State.respond_banks (s : State) (r : List Word) : (s.respond r).banks = s.banks := rfl
@[simp] theorem State.respond_bus (s : State) (r : List Word) : (s.respond r).bus = s.bus := rfl
@[simp] theorem State.respond_stationRead (s : State) (r : List Word) :
    (s.respond r).stationRead = s.stationRead := rfl
@[simp] theorem State.respond_port (s : State) (r : List Word) :
    (s.respond r).port = { s.port with phase := .responding r } := rfl
@[simp] theorem State.respond_attention (s : State) (r : List Word) : (s.respond r).attention = s.attention := rfl
@[simp] theorem State.respond_imaging (s : State) (r : List Word) : (s.respond r).imaging = s.imaging := rfl
@[simp] theorem State.respond_free (s : State) (r : List Word) : (s.respond r).free = s.free := rfl
@[simp] theorem State.respond_pending (s : State) (r : List Word) : (s.respond r).pending = s.pending := rfl

/-! ### State.startStore -/

@[simp] theorem State.startStore_slots (s : State) (op : StoreOp) : (s.startStore op).slots = s.slots := rfl
@[simp] theorem State.startStore_copy (s : State) (op : StoreOp) : (s.startStore op).copy = s.copy := rfl
@[simp] theorem State.startStore_classes (s : State) (op : StoreOp) : (s.startStore op).classes = s.classes := rfl
@[simp] theorem State.startStore_table (s : State) (op : StoreOp) : (s.startStore op).table = s.table := rfl
@[simp] theorem State.startStore_links (s : State) (op : StoreOp) : (s.startStore op).links = s.links := rfl
@[simp] theorem State.startStore_rotation (s : State) (op : StoreOp) : (s.startStore op).rotation = s.rotation := rfl
@[simp] theorem State.startStore_banks (s : State) (op : StoreOp) : (s.startStore op).banks = s.banks := rfl
@[simp] theorem State.startStore_bus (s : State) (op : StoreOp) : (s.startStore op).bus = s.bus := rfl
@[simp] theorem State.startStore_stationRead (s : State) (op : StoreOp) :
    (s.startStore op).stationRead = s.stationRead := rfl
@[simp] theorem State.startStore_port (s : State) (op : StoreOp) :
    (s.startStore op).port = { s.port with phase := .acting op } := rfl
@[simp] theorem State.startStore_attention (s : State) (op : StoreOp) :
    (s.startStore op).attention = s.attention := rfl
@[simp] theorem State.startStore_imaging (s : State) (op : StoreOp) : (s.startStore op).imaging = s.imaging := rfl
@[simp] theorem State.startStore_free (s : State) (op : StoreOp) : (s.startStore op).free = s.free := rfl
@[simp] theorem State.startStore_pending (s : State) (op : StoreOp) : (s.startStore op).pending = s.pending := rfl

/-! ### State.gather -/

@[simp] theorem State.gather_slots (s : State) (ws : List Word) : (s.gather ws).slots = s.slots := rfl
@[simp] theorem State.gather_copy (s : State) (ws : List Word) : (s.gather ws).copy = s.copy := rfl
@[simp] theorem State.gather_classes (s : State) (ws : List Word) : (s.gather ws).classes = s.classes := rfl
@[simp] theorem State.gather_table (s : State) (ws : List Word) : (s.gather ws).table = s.table := rfl
@[simp] theorem State.gather_links (s : State) (ws : List Word) : (s.gather ws).links = s.links := rfl
@[simp] theorem State.gather_rotation (s : State) (ws : List Word) : (s.gather ws).rotation = s.rotation := rfl
@[simp] theorem State.gather_banks (s : State) (ws : List Word) : (s.gather ws).banks = s.banks := rfl
@[simp] theorem State.gather_bus (s : State) (ws : List Word) : (s.gather ws).bus = s.bus := rfl
@[simp] theorem State.gather_stationRead (s : State) (ws : List Word) :
    (s.gather ws).stationRead = s.stationRead := rfl
@[simp] theorem State.gather_port (s : State) (ws : List Word) :
    (s.gather ws).port = { s.port with phase := .taking ws } := rfl
@[simp] theorem State.gather_attention (s : State) (ws : List Word) : (s.gather ws).attention = s.attention := rfl
@[simp] theorem State.gather_imaging (s : State) (ws : List Word) : (s.gather ws).imaging = s.imaging := rfl
@[simp] theorem State.gather_free (s : State) (ws : List Word) : (s.gather ws).free = s.free := rfl
@[simp] theorem State.gather_pending (s : State) (ws : List Word) : (s.gather ws).pending = s.pending := rfl

/-! ### State.keepOffered -/

@[simp] theorem State.keepOffered_slots (s : State) (ws : List Word) : (s.keepOffered ws).slots = s.slots := rfl
@[simp] theorem State.keepOffered_copy (s : State) (ws : List Word) : (s.keepOffered ws).copy = s.copy := rfl
@[simp] theorem State.keepOffered_classes (s : State) (ws : List Word) : (s.keepOffered ws).classes = s.classes := rfl
@[simp] theorem State.keepOffered_table (s : State) (ws : List Word) : (s.keepOffered ws).table = s.table := rfl
@[simp] theorem State.keepOffered_links (s : State) (ws : List Word) : (s.keepOffered ws).links = s.links := rfl
@[simp] theorem State.keepOffered_rotation (s : State) (ws : List Word) :
    (s.keepOffered ws).rotation = s.rotation := rfl
@[simp] theorem State.keepOffered_banks (s : State) (ws : List Word) : (s.keepOffered ws).banks = s.banks := rfl
@[simp] theorem State.keepOffered_bus (s : State) (ws : List Word) : (s.keepOffered ws).bus = s.bus := rfl
@[simp] theorem State.keepOffered_stationRead (s : State) (ws : List Word) :
    (s.keepOffered ws).stationRead = s.stationRead := rfl
@[simp] theorem State.keepOffered_port (s : State) (ws : List Word) :
    (s.keepOffered ws).port = { s.port with offered := s.port.offered ++ ws } := rfl
@[simp] theorem State.keepOffered_attention (s : State) (ws : List Word) :
    (s.keepOffered ws).attention = s.attention := rfl
@[simp] theorem State.keepOffered_imaging (s : State) (ws : List Word) : (s.keepOffered ws).imaging = s.imaging := rfl
@[simp] theorem State.keepOffered_free (s : State) (ws : List Word) : (s.keepOffered ws).free = s.free := rfl
@[simp] theorem State.keepOffered_pending (s : State) (ws : List Word) : (s.keepOffered ws).pending = s.pending := rfl

/-! ### State.portReady -/

@[simp] theorem State.portReady_slots (s : State) : s.portReady.slots = s.slots := rfl
@[simp] theorem State.portReady_copy (s : State) : s.portReady.copy = s.copy := rfl
@[simp] theorem State.portReady_classes (s : State) : s.portReady.classes = s.classes := rfl
@[simp] theorem State.portReady_table (s : State) : s.portReady.table = s.table := rfl
@[simp] theorem State.portReady_links (s : State) : s.portReady.links = s.links := rfl
@[simp] theorem State.portReady_rotation (s : State) : s.portReady.rotation = s.rotation := rfl
@[simp] theorem State.portReady_banks (s : State) : s.portReady.banks = s.banks := rfl
@[simp] theorem State.portReady_bus (s : State) : s.portReady.bus = s.bus := rfl
@[simp] theorem State.portReady_stationRead (s : State) : s.portReady.stationRead = s.stationRead := rfl
@[simp] theorem State.portReady_port (s : State) : s.portReady.port = { phase := .ready, offered := [] } := rfl
@[simp] theorem State.portReady_attention (s : State) : s.portReady.attention = s.attention := rfl
@[simp] theorem State.portReady_imaging (s : State) : s.portReady.imaging = s.imaging := rfl
@[simp] theorem State.portReady_free (s : State) : s.portReady.free = s.free := rfl
@[simp] theorem State.portReady_pending (s : State) : s.portReady.pending = s.pending := rfl

/-! ### State.withPending -/

@[simp] theorem State.withPending_slots (s : State) (q : List Instr) : (s.withPending q).slots = s.slots := rfl
@[simp] theorem State.withPending_copy (s : State) (q : List Instr) : (s.withPending q).copy = s.copy := rfl
@[simp] theorem State.withPending_classes (s : State) (q : List Instr) : (s.withPending q).classes = s.classes := rfl
@[simp] theorem State.withPending_table (s : State) (q : List Instr) : (s.withPending q).table = s.table := rfl
@[simp] theorem State.withPending_links (s : State) (q : List Instr) : (s.withPending q).links = s.links := rfl
@[simp] theorem State.withPending_rotation (s : State) (q : List Instr) :
    (s.withPending q).rotation = s.rotation := rfl
@[simp] theorem State.withPending_banks (s : State) (q : List Instr) : (s.withPending q).banks = s.banks := rfl
@[simp] theorem State.withPending_bus (s : State) (q : List Instr) : (s.withPending q).bus = s.bus := rfl
@[simp] theorem State.withPending_stationRead (s : State) (q : List Instr) :
    (s.withPending q).stationRead = s.stationRead := rfl
@[simp] theorem State.withPending_port (s : State) (q : List Instr) : (s.withPending q).port = s.port := rfl
@[simp] theorem State.withPending_attention (s : State) (q : List Instr) :
    (s.withPending q).attention = s.attention := rfl
@[simp] theorem State.withPending_imaging (s : State) (q : List Instr) : (s.withPending q).imaging = s.imaging := rfl
@[simp] theorem State.withPending_free (s : State) (q : List Instr) : (s.withPending q).free = s.free := rfl
@[simp] theorem State.withPending_pending (s : State) (q : List Instr) : (s.withPending q).pending = q := rfl

/-! ### State.endUnit -/

@[simp] theorem State.endUnit_slots (s : State) : s.endUnit.slots = s.slots := rfl
@[simp] theorem State.endUnit_copy (s : State) : s.endUnit.copy = s.copy := rfl
@[simp] theorem State.endUnit_classes (s : State) : s.endUnit.classes = s.classes := rfl
@[simp] theorem State.endUnit_table (s : State) : s.endUnit.table = s.table := rfl
@[simp] theorem State.endUnit_links (s : State) : s.endUnit.links = s.links := rfl
@[simp] theorem State.endUnit_rotation (s : State) : s.endUnit.rotation = s.rotation := rfl
@[simp] theorem State.endUnit_banks (s : State) : s.endUnit.banks = s.banks := rfl
@[simp] theorem State.endUnit_bus (s : State) : s.endUnit.bus = { s.bus with holder := none } := rfl
@[simp] theorem State.endUnit_stationRead (s : State) : s.endUnit.stationRead = s.stationRead := rfl
@[simp] theorem State.endUnit_port (s : State) : s.endUnit.port = s.port := rfl
@[simp] theorem State.endUnit_attention (s : State) : s.endUnit.attention = s.attention := rfl
@[simp] theorem State.endUnit_imaging (s : State) : s.endUnit.imaging = s.imaging := rfl
@[simp] theorem State.endUnit_free (s : State) : s.endUnit.free = s.free := rfl
@[simp] theorem State.endUnit_pending (s : State) : s.endUnit.pending = s.pending := rfl

/-! ### State.setHoldRequest -/

@[simp] theorem State.setHoldRequest_slots (s : State) (b : Bool) : (s.setHoldRequest b).slots = s.slots := rfl
@[simp] theorem State.setHoldRequest_copy (s : State) (b : Bool) : (s.setHoldRequest b).copy = s.copy := rfl
@[simp] theorem State.setHoldRequest_classes (s : State) (b : Bool) : (s.setHoldRequest b).classes = s.classes := rfl
@[simp] theorem State.setHoldRequest_table (s : State) (b : Bool) : (s.setHoldRequest b).table = s.table := rfl
@[simp] theorem State.setHoldRequest_links (s : State) (b : Bool) : (s.setHoldRequest b).links = s.links := rfl
@[simp] theorem State.setHoldRequest_rotation (s : State) (b : Bool) :
    (s.setHoldRequest b).rotation = s.rotation := rfl
@[simp] theorem State.setHoldRequest_banks (s : State) (b : Bool) : (s.setHoldRequest b).banks = s.banks := rfl
@[simp] theorem State.setHoldRequest_bus (s : State) (b : Bool) :
    (s.setHoldRequest b).bus = { s.bus with holdRequest := b } := rfl
@[simp] theorem State.setHoldRequest_stationRead (s : State) (b : Bool) :
    (s.setHoldRequest b).stationRead = s.stationRead := rfl
@[simp] theorem State.setHoldRequest_port (s : State) (b : Bool) : (s.setHoldRequest b).port = s.port := rfl
@[simp] theorem State.setHoldRequest_attention (s : State) (b : Bool) :
    (s.setHoldRequest b).attention = s.attention := rfl
@[simp] theorem State.setHoldRequest_imaging (s : State) (b : Bool) : (s.setHoldRequest b).imaging = s.imaging := rfl
@[simp] theorem State.setHoldRequest_free (s : State) (b : Bool) : (s.setHoldRequest b).free = s.free := rfl
@[simp] theorem State.setHoldRequest_pending (s : State) (b : Bool) : (s.setHoldRequest b).pending = s.pending := rfl

/-! ### State.storeAt -/

@[simp] theorem State.storeAt_slots (s : State) (p : Fin 8) (a : Nat) (ws : List Word) :
    (s.storeAt p a ws).slots = s.slots := rfl
@[simp] theorem State.storeAt_copy (s : State) (p : Fin 8) (a : Nat) (ws : List Word) :
    (s.storeAt p a ws).copy = s.copy := rfl
@[simp] theorem State.storeAt_classes (s : State) (p : Fin 8) (a : Nat) (ws : List Word) :
    (s.storeAt p a ws).classes = s.classes := rfl
@[simp] theorem State.storeAt_table (s : State) (p : Fin 8) (a : Nat) (ws : List Word) :
    (s.storeAt p a ws).table = s.table := rfl
@[simp] theorem State.storeAt_links (s : State) (p : Fin 8) (a : Nat) (ws : List Word) :
    (s.storeAt p a ws).links = s.links := rfl
@[simp] theorem State.storeAt_rotation (s : State) (p : Fin 8) (a : Nat) (ws : List Word) :
    (s.storeAt p a ws).rotation = s.rotation := rfl
@[simp] theorem State.storeAt_banks (s : State) (p : Fin 8) (a : Nat) (ws : List Word) :
    (s.storeAt p a ws).banks = modifyAt s.banks p fun x => storeWords x a ws := rfl
@[simp] theorem State.storeAt_bus (s : State) (p : Fin 8) (a : Nat) (ws : List Word) :
    (s.storeAt p a ws).bus = s.bus := rfl
@[simp] theorem State.storeAt_stationRead (s : State) (p : Fin 8) (a : Nat) (ws : List Word) :
    (s.storeAt p a ws).stationRead = s.stationRead := rfl
@[simp] theorem State.storeAt_port (s : State) (p : Fin 8) (a : Nat) (ws : List Word) :
    (s.storeAt p a ws).port = s.port := rfl
@[simp] theorem State.storeAt_attention (s : State) (p : Fin 8) (a : Nat) (ws : List Word) :
    (s.storeAt p a ws).attention = s.attention := rfl
@[simp] theorem State.storeAt_imaging (s : State) (p : Fin 8) (a : Nat) (ws : List Word) :
    (s.storeAt p a ws).imaging = s.imaging := rfl
@[simp] theorem State.storeAt_free (s : State) (p : Fin 8) (a : Nat) (ws : List Word) :
    (s.storeAt p a ws).free = s.free := rfl
@[simp] theorem State.storeAt_pending (s : State) (p : Fin 8) (a : Nat) (ws : List Word) :
    (s.storeAt p a ws).pending = s.pending := rfl

/-! ### State.onLink -/

@[simp] theorem State.onLink_slots (s : State) (i : Fin 4) (f : Link → Link) : (s.onLink i f).slots = s.slots := rfl
@[simp] theorem State.onLink_copy (s : State) (i : Fin 4) (f : Link → Link) : (s.onLink i f).copy = s.copy := rfl
@[simp] theorem State.onLink_classes (s : State) (i : Fin 4) (f : Link → Link) :
    (s.onLink i f).classes = s.classes := rfl
@[simp] theorem State.onLink_table (s : State) (i : Fin 4) (f : Link → Link) : (s.onLink i f).table = s.table := rfl
@[simp] theorem State.onLink_links (s : State) (i : Fin 4) (f : Link → Link) :
    (s.onLink i f).links = modifyAt s.links i f := rfl
@[simp] theorem State.onLink_rotation (s : State) (i : Fin 4) (f : Link → Link) :
    (s.onLink i f).rotation = s.rotation := rfl
@[simp] theorem State.onLink_banks (s : State) (i : Fin 4) (f : Link → Link) : (s.onLink i f).banks = s.banks := rfl
@[simp] theorem State.onLink_bus (s : State) (i : Fin 4) (f : Link → Link) : (s.onLink i f).bus = s.bus := rfl
@[simp] theorem State.onLink_stationRead (s : State) (i : Fin 4) (f : Link → Link) :
    (s.onLink i f).stationRead = s.stationRead := rfl
@[simp] theorem State.onLink_port (s : State) (i : Fin 4) (f : Link → Link) : (s.onLink i f).port = s.port := rfl
@[simp] theorem State.onLink_attention (s : State) (i : Fin 4) (f : Link → Link) :
    (s.onLink i f).attention = s.attention := rfl
@[simp] theorem State.onLink_imaging (s : State) (i : Fin 4) (f : Link → Link) :
    (s.onLink i f).imaging = s.imaging := rfl
@[simp] theorem State.onLink_free (s : State) (i : Fin 4) (f : Link → Link) : (s.onLink i f).free = s.free := rfl
@[simp] theorem State.onLink_pending (s : State) (i : Fin 4) (f : Link → Link) :
    (s.onLink i f).pending = s.pending := rfl

/-! ### State.onImaging -/

@[simp] theorem State.onImaging_slots (s : State) (f : Imaging → Imaging) : (s.onImaging f).slots = s.slots := rfl
@[simp] theorem State.onImaging_copy (s : State) (f : Imaging → Imaging) : (s.onImaging f).copy = s.copy := rfl
@[simp] theorem State.onImaging_classes (s : State) (f : Imaging → Imaging) :
    (s.onImaging f).classes = s.classes := rfl
@[simp] theorem State.onImaging_table (s : State) (f : Imaging → Imaging) : (s.onImaging f).table = s.table := rfl
@[simp] theorem State.onImaging_links (s : State) (f : Imaging → Imaging) : (s.onImaging f).links = s.links := rfl
@[simp] theorem State.onImaging_rotation (s : State) (f : Imaging → Imaging) :
    (s.onImaging f).rotation = s.rotation := rfl
@[simp] theorem State.onImaging_banks (s : State) (f : Imaging → Imaging) : (s.onImaging f).banks = s.banks := rfl
@[simp] theorem State.onImaging_bus (s : State) (f : Imaging → Imaging) : (s.onImaging f).bus = s.bus := rfl
@[simp] theorem State.onImaging_stationRead (s : State) (f : Imaging → Imaging) :
    (s.onImaging f).stationRead = s.stationRead := rfl
@[simp] theorem State.onImaging_port (s : State) (f : Imaging → Imaging) : (s.onImaging f).port = s.port := rfl
@[simp] theorem State.onImaging_attention (s : State) (f : Imaging → Imaging) :
    (s.onImaging f).attention = s.attention := rfl
@[simp] theorem State.onImaging_imaging (s : State) (f : Imaging → Imaging) :
    (s.onImaging f).imaging = f s.imaging := rfl
@[simp] theorem State.onImaging_free (s : State) (f : Imaging → Imaging) : (s.onImaging f).free = s.free := rfl
@[simp] theorem State.onImaging_pending (s : State) (f : Imaging → Imaging) :
    (s.onImaging f).pending = s.pending := rfl

/-! ### State.putBench -/

@[simp] theorem State.putBench_slots (s : State) (b : Bench) : (s.putBench b).slots = b.slots := rfl
@[simp] theorem State.putBench_copy (s : State) (b : Bench) : (s.putBench b).copy = s.copy := rfl
@[simp] theorem State.putBench_classes (s : State) (b : Bench) : (s.putBench b).classes = s.classes := rfl
@[simp] theorem State.putBench_table (s : State) (b : Bench) : (s.putBench b).table = b.table := rfl
@[simp] theorem State.putBench_links (s : State) (b : Bench) : (s.putBench b).links = s.links.set b.id b.link := rfl
@[simp] theorem State.putBench_rotation (s : State) (b : Bench) : (s.putBench b).rotation = s.rotation := rfl
@[simp] theorem State.putBench_banks (s : State) (b : Bench) : (s.putBench b).banks = s.banks := rfl
@[simp] theorem State.putBench_bus (s : State) (b : Bench) : (s.putBench b).bus = s.bus := rfl
@[simp] theorem State.putBench_stationRead (s : State) (b : Bench) : (s.putBench b).stationRead = s.stationRead := rfl
@[simp] theorem State.putBench_port (s : State) (b : Bench) : (s.putBench b).port = s.port := rfl
@[simp] theorem State.putBench_attention (s : State) (b : Bench) : (s.putBench b).attention = s.attention := rfl
@[simp] theorem State.putBench_imaging (s : State) (b : Bench) : (s.putBench b).imaging = s.imaging := rfl
@[simp] theorem State.putBench_free (s : State) (b : Bench) : (s.putBench b).free = s.free := rfl
@[simp] theorem State.putBench_pending (s : State) (b : Bench) : (s.putBench b).pending = s.pending := rfl

/-! ### State.putFilm -/

@[simp] theorem State.putFilm_slots (s : State) (f : Film) : (s.putFilm f).slots = s.slots := rfl
@[simp] theorem State.putFilm_copy (s : State) (f : Film) : (s.putFilm f).copy = s.copy := rfl
@[simp] theorem State.putFilm_classes (s : State) (f : Film) : (s.putFilm f).classes = s.classes := rfl
@[simp] theorem State.putFilm_table (s : State) (f : Film) : (s.putFilm f).table = f.table := rfl
@[simp] theorem State.putFilm_links (s : State) (f : Film) : (s.putFilm f).links = s.links := rfl
@[simp] theorem State.putFilm_rotation (s : State) (f : Film) : (s.putFilm f).rotation = s.rotation := rfl
@[simp] theorem State.putFilm_banks (s : State) (f : Film) : (s.putFilm f).banks = s.banks := rfl
@[simp] theorem State.putFilm_bus (s : State) (f : Film) : (s.putFilm f).bus = s.bus := rfl
@[simp] theorem State.putFilm_stationRead (s : State) (f : Film) : (s.putFilm f).stationRead = s.stationRead := rfl
@[simp] theorem State.putFilm_port (s : State) (f : Film) : (s.putFilm f).port = s.port := rfl
@[simp] theorem State.putFilm_attention (s : State) (f : Film) : (s.putFilm f).attention = s.attention := rfl
@[simp] theorem State.putFilm_imaging (s : State) (f : Film) : (s.putFilm f).imaging = f.img := rfl
@[simp] theorem State.putFilm_free (s : State) (f : Film) : (s.putFilm f).free = s.free := rfl
@[simp] theorem State.putFilm_pending (s : State) (f : Film) : (s.putFilm f).pending = s.pending := rfl

/-! ### State.emptySlot -/

@[simp] theorem State.emptySlot_slots (s : State) (i : Fin 8) : (s.emptySlot i).slots = clearSlot s.slots i := rfl
@[simp] theorem State.emptySlot_copy (s : State) (i : Fin 8) : (s.emptySlot i).copy = s.copy := rfl
@[simp] theorem State.emptySlot_classes (s : State) (i : Fin 8) : (s.emptySlot i).classes = s.classes := rfl
@[simp] theorem State.emptySlot_table (s : State) (i : Fin 8) : (s.emptySlot i).table = s.table := rfl
@[simp] theorem State.emptySlot_links (s : State) (i : Fin 8) : (s.emptySlot i).links = s.links := rfl
@[simp] theorem State.emptySlot_rotation (s : State) (i : Fin 8) : (s.emptySlot i).rotation = s.rotation := rfl
@[simp] theorem State.emptySlot_banks (s : State) (i : Fin 8) : (s.emptySlot i).banks = s.banks := rfl
@[simp] theorem State.emptySlot_bus (s : State) (i : Fin 8) : (s.emptySlot i).bus = s.bus := rfl
@[simp] theorem State.emptySlot_stationRead (s : State) (i : Fin 8) :
    (s.emptySlot i).stationRead = s.stationRead := rfl
@[simp] theorem State.emptySlot_port (s : State) (i : Fin 8) : (s.emptySlot i).port = s.port := rfl
@[simp] theorem State.emptySlot_attention (s : State) (i : Fin 8) : (s.emptySlot i).attention = s.attention := rfl
@[simp] theorem State.emptySlot_imaging (s : State) (i : Fin 8) :
    (s.emptySlot i).imaging = { s.imaging with mirror := dropSlotEntries s.imaging.mirror i } := rfl
@[simp] theorem State.emptySlot_free (s : State) (i : Fin 8) : (s.emptySlot i).free = s.free := rfl
@[simp] theorem State.emptySlot_pending (s : State) (i : Fin 8) : (s.emptySlot i).pending = s.pending := rfl

end Sys2Proof.Machine
end

