-- ==== Sys2Proof/Laws/Galleys.lean ====
section
/-! SUPPORT. What the operations of the Galley Table do, in the words of the statements: flags raised, a record found, a
line appended, a galley ended or killed (chapters 3 and 7). -/

namespace Sys2Proof.Machine

/-! ## Flags (R113) -/

theorem hasFlag_addFlag (w : Word) (f e : GalleyFlag) : hasFlag (addFlag w f) e = true ↔ hasFlag w e = true ∨ e = f := by
  have hf : f.bit < 16 := by cases f <;> decide
  have he : e.bit < 16 := by cases e <;> decide
  have inj : e.bit = f.bit ↔ e = f := by cases f <;> cases e <;> decide
  simp only [hasFlag, addFlag, BitVec.getLsbD_or, BitVec.getLsbD_shiftLeft, BitVec.getLsbD_one, Bool.or_eq_true,
    Bool.and_eq_true, decide_eq_true_eq, ← inj]
  constructor
  · rintro (h | h)
    · exact .inl h
    · right
      have h1 := h.1
      have h2 := h.2
      simp at h1 h2
      omega
  · rintro (h | h)
    · exact .inl h
    · right
      simp
      omega

theorem hasFlag_addFlagIf (c : Bool) (w : Word) (f e : GalleyFlag) :
    hasFlag (addFlagIf c w f) e = true ↔ hasFlag w e = true ∨ (e = f ∧ c = true) := by
  cases c <;> simp [addFlagIf, hasFlag_addFlag]

/-- A galley record with flags raised, those of a set and no other, and the mark set if one of them is new (R113). -/
structure FlagsRaised (x y : Galley) (new : GalleyFlag → Prop) : Prop where
  rest : y = { x with flags := y.flags, mark := y.mark }
  flags : ∀ e, hasFlag y.flags e = true ↔ hasFlag x.flags e = true ∨ new e
  mark : y.mark = true ↔ x.mark = true ∨ y.flags ≠ x.flags
  kept : ∀ k, x.flags.getLsbD k = true → y.flags.getLsbD k = true

theorem FlagsRaised.trans {x y z : Galley} {p q : GalleyFlag → Prop} (a : FlagsRaised x y p) (b : FlagsRaised y z q) :
    FlagsRaised x z fun e => p e ∨ q e := by
  have same {v w : Word} (h : ∀ k, v.getLsbD k = true → w.getLsbD k = true)
      (h' : ∀ k, w.getLsbD k = true → v.getLsbD k = true) : v = w := by
    apply BitVec.eq_of_getLsbD_eq
    intro k _
    have h1 := h k
    have h2 := h' k
    cases hv : v.getLsbD k <;> cases hw : w.getLsbD k <;> simp_all
  refine ⟨by rw [b.rest, a.rest], fun e => by rw [b.flags, a.flags, or_assoc], ?_, fun k h => b.kept k (a.kept k h)⟩
  rw [b.mark, a.mark, or_assoc]
  constructor
  · rintro (h | h | h)
    · exact .inl h
    · exact .inr fun hz => h (same (fun k hk => by rw [← hz]; exact b.kept k hk) a.kept)
    · exact .inr fun hz => h (same (fun k hk => by rw [hz] at hk; exact a.kept k hk) b.kept)
  · rintro (h | h)
    · exact .inl h
    · by_cases hy : y.flags = x.flags
      · exact .inr (.inr (by rw [hy]; exact h))
      · exact .inr (.inl hy)

theorem Galley.raiseFlag_raised (x : Galley) (c : Bool) (f : GalleyFlag) :
    FlagsRaised x (if c then x.raiseFlag f else x) fun e => e = f ∧ c = true := by
  cases c
  · constructor <;> simp
  · simp only [if_true, and_true]
    unfold Galley.raiseFlag
    by_cases h : hasFlag x.flags f = true
    · simp only [h, if_true]
      refine ⟨rfl, fun e => ⟨.inl, ?_⟩, by simp, fun k h => h⟩
      rintro (h' | rfl) <;> assumption
    · simp only [h]
      refine ⟨rfl, fun e => hasFlag_addFlag _ _ _, ?_, fun k hk => by simp [addFlag, hk]⟩
      simp only [Bool.false_eq_true, if_false, true_iff]
      refine .inr fun he => h ?_
      have := (hasFlag_addFlag x.flags f f).2 (.inr rfl)
      rwa [he] at this

/-! ## Records found (R53, R111, R14) -/

theorem mem_recordIds : ∀ g : Fin 32, g ∈ recordIds := by decide

theorem GalleyTable.lowestFree_none (t : GalleyTable) : t.lowestFree = none ↔ ∀ h : Fin 32, t.records[h] ≠ none := by
  unfold GalleyTable.lowestFree
  rw [List.find?_eq_none]
  exact ⟨fun h g => by simpa using h g (mem_recordIds g), fun h g _ => by simpa using h g⟩

theorem GalleyTable.lowestFree_some {t : GalleyTable} {g : Fin 32} (hg : t.records[g] = none)
    (hl : ∀ h : Fin 32, h < g → t.records[h] ≠ none) : t.lowestFree = some g := by
  cases e : t.lowestFree with
  | none => exact absurd hg ((t.lowestFree_none).1 e g)
  | some k =>
    unfold GalleyTable.lowestFree at e
    have hk : t.records[k] = none := by simpa using List.find?_some e
    rcases Nat.lt_trichotomy g k with h | h | h
    · exfalso
      have rising : recordIds.Pairwise (· < ·) := by decide
      obtain ⟨_, pre, post, hsplit, hpre⟩ := List.find?_eq_some_iff_append.1 e
      have hm := mem_recordIds g
      rw [hsplit] at hm rising
      rcases List.mem_append.1 hm with hm | hm
      · have := hpre g hm
        simp [hg] at this
      · rcases List.mem_cons.1 hm with hm | hm
        · exact absurd (hm ▸ h) (Nat.lt_irrefl _)
        · have := (List.pairwise_cons.1 (List.pairwise_append.1 rising).2.1).1 g hm
          exact absurd (Nat.lt_trans this h) (Nat.lt_irrefl _)
    · exact congrArg some (Fin.ext h.symm)
    · exact absurd hk (hl k h)

theorem GalleyTable.target_some {t : GalleyTable} {i : Fin 4} {n : Nat} {g : Fin 32} (h : Target t i n g) :
    t.target i n = some g := by
  obtain ⟨pre, post, ho, ⟨r, h1, h2, h3, h4⟩, hp⟩ := h
  unfold GalleyTable.target
  rw [List.find?_eq_some_iff_append]
  refine ⟨by simp [h1, h2, h3, h4], pre, post, ho, fun k hk => ?_⟩
  have := hp k hk
  cases hr : t.records[k] with
  | none => simp
  | some r =>
    simp only [Bool.not_eq_true', Bool.and_eq_false_iff, decide_eq_false_iff_not]
    by_cases h2 : r.link = i
    · by_cases h3 : r.number = n
      · exact .inr fun h4 => this ⟨r, hr, h2, h3, h4⟩
      · exact .inl (.inr h3)
    · exact .inl (.inl h2)

theorem GalleyTable.target_none {t : GalleyTable} {i : Fin 4} {n : Nat} (h : ∀ g ∈ t.order, ¬ Names t i n g) :
    t.target i n = none := by
  unfold GalleyTable.target
  rw [List.find?_eq_none]
  intro k hk
  have := h k hk
  cases hr : t.records[k] with
  | none => simp
  | some r =>
    intro hc
    simp only [Bool.and_eq_true, decide_eq_true_eq] at hc
    exact this ⟨r, hr, hc.1.1, hc.1.2, hc.2⟩

theorem resolveResident_isSome (s : State) (n : Nat) : (resolveResident s.slots n).isSome = true ↔ FontResident s n := by
  have all : ∀ g : Fin 8, g ∈ slotIds := by decide
  unfold resolveResident FontResident fontNumberOk
  by_cases h : 1 ≤ n ∧ n ≤ 255
  · simp [h, List.find?_isSome, all]
  · have hb : (decide (1 ≤ n) && decide (n ≤ 255)) = false := by simpa using h
    rw [hb]
    simp only [Bool.false_eq_true, if_false, Option.isSome_none, false_iff]
    exact fun ⟨a, b, _⟩ => h ⟨a, b⟩

/-! ## Lines and ends (R48, R87, R112, R114, R115, R123) -/

theorem Galley.atLimit_iff (r : Galley) : r.atLimit = true ↔ AtLineLimit r := by
  simp only [Galley.atLimit, AtLineLimit, Config.lineLimit, Bool.and_eq_true, Bool.or_eq_true, decide_eq_true_eq,
    or_assoc]
  exact and_congr_right fun _ => decide_eq_true_iff

theorem GalleyTable.joinEligible_eq {t : GalleyTable} {g : Fin 32} {r : Galley} (hr : t.records[g] = some r) :
    t.joinEligible g =
      { t with eligible := if r.cls ≠ 0 ∧ g ∉ t.eligible then t.eligible ++ [g] else t.eligible } := by
  unfold GalleyTable.joinEligible
  rw [hr]
  by_cases h1 : r.cls = 0 <;> by_cases h2 : g ∈ t.eligible <;> simp [h1, h2]

/-- A line appended, and the record as it then stands. -/
theorem GalleyTable.appendLine_spec {t : GalleyTable} {g : Fin 32} {r : Galley} (hr : t.records[g] = some r)
    (hf : 0 < t.freeLines) (line : ClosedLine) :
    LineAppended t (t.appendLine g line) g r line ∧
      (t.appendLine g line).records[g] = some (r.appendLine g line) ∧ (r.appendLine g line).header = r.header := by
  let l : LineRecord :=
    { galley := g, number := satAdd r.linesSet 1, advance := line.advance, quad := line.quad, flags := line.flags
      glyphs := line.glyphs }
  let x : Galley :=
    { r with linesSet := satAdd r.linesSet 1, lines := r.lines ++ [l]
             state := if r.state = .receiving ∧ 96 ≤ (r.lines ++ [l]).length then .pressed else r.state }
  have hst : (r.state = .receiving ∧ 96 ≤ (r.lines ++ [l]).length) ↔ (r.state = .receiving ∧ 95 ≤ r.lines.length) := by
    simp
  have hq : FlagsRaised x (r.appendLine g line) fun e => (e = .forcedLine ∧ line.flags.forced = true) ∨
      (e = .oversetLine ∧ line.flags.overset = true) ∨ (e = .looseLine ∧ line.flags.loose = true) := by
    have h := ((x.raiseFlag_raised line.flags.forced .forcedLine).trans
      (Galley.raiseFlag_raised _ line.flags.overset .oversetLine)).trans
      (Galley.raiseFlag_raised _ line.flags.loose .looseLine)
    exact ⟨h.rest, fun f => (h.flags f).trans (or_congr_right or_assoc), h.mark, h.kept⟩
  generalize hd : r.appendLine g line = q at *
  have hqs : q.state = if r.state = .receiving ∧ 95 ≤ r.lines.length then .pressed else r.state := by
    rw [hq.rest]
    simp only [x, hst]
  have hqc : q.cls = r.cls := by rw [hq.rest]
  have hpr : (r.state = .receiving ∧ q.state = .pressed) ↔ (r.state = .receiving ∧ 95 ≤ r.lines.length) := by
    rw [hqs]
    split <;> simp_all
  let v : GalleyTable := { t with records := t.records.set g (some q), freeLines := t.freeLines - 1 }
  have hv : t.appendLine g line =
      { v with eligible := if r.state = .receiving ∧ 95 ≤ r.lines.length ∧ r.cls ≠ 0 ∧ g ∉ t.eligible
                 then t.eligible ++ [g] else t.eligible } := by
    have ht : t.appendLine g line = if r.state = .receiving ∧ 95 ≤ r.lines.length then v.joinEligible g else v := by
      unfold GalleyTable.appendLine
      rw [hr]
      simp only [hd, hpr, v]
    rw [ht]
    by_cases h : r.state = .receiving ∧ 95 ≤ r.lines.length
    · rw [if_pos h, GalleyTable.joinEligible_eq (t := v) (g := g) (r := q) (by simp [v]), hqc]
      simp [h, v]
    · have hn : ¬ (r.state = .receiving ∧ 95 ≤ r.lines.length ∧ r.cls ≠ 0 ∧ g ∉ t.eligible) :=
        fun ⟨a, b, _⟩ => h ⟨a, b⟩
      rw [if_neg h]
      simp only [if_neg hn]
      rfl
  rw [hv]
  refine ⟨⟨q, by simp [v], ?_, hq.flags, hq.mark, fun h hh => set_other _ (Ne.symm hh) _, ?_, rfl, rfl⟩, by simp [v], ?_⟩
  · rw [hq.rest]
    simp only [x, hst, l]
    rfl
  · show t.freeLines - 1 + 1 = _
    omega
  · rw [hq.rest]

theorem GalleyTable.endGalley_spec {t : GalleyTable} {g : Fin 32} {r : Galley} (hr : t.records[g] = some r) :
    GalleyEnded t (t.endGalley g) g r := by
  have hm : ∀ f : Galley → Galley, t.modify g f = { t with records := t.records.set g (some (f r)) } := by
    intro f
    unfold GalleyTable.modify
    rw [hr]
  unfold GalleyTable.endGalley
  rw [hr]
  dsimp only
  simp only [hm]
  by_cases hc : r.state = .receiving ∨ r.state = .pressed
  · rw [if_pos hc, GalleyTable.joinEligible_eq (r := { r with ended := true, state := .set, mark := true }) (by simp)]
    exact ⟨by simp [hc], fun h hh => set_other _ (Ne.symm hh) _, rfl, rfl, by simp only [hc, true_and]⟩
  · rw [if_neg hc]
    exact ⟨by simp [hc], fun h hh => set_other _ (Ne.symm hh) _, rfl, rfl, by simp only [hc, false_and, if_false]⟩

theorem GalleyTable.kill_spec {t : GalleyTable} {g : Fin 32} {r : Galley} (hr : t.records[g] = some r)
    (hd : r.state ≠ .done) : GalleyKilled t (t.kill g .killed) g r := by
  have hfin : t.finish g .killed =
      { t with
        eligible := t.eligible.filter (· ≠ g), freeLines := t.freeLines + r.lines.length
        records := (t.records.set g (some { r with lines := [] })).set g
          (some { r with lines := [], state := .done, outcome := .killed, mark := true }) } := by
    unfold GalleyTable.finish GalleyTable.leaveEligible GalleyTable.returnLines GalleyTable.modify
    simp only [hr]
    simp
  have hkill : t.kill g .killed =
      if r.state = .exposing then
        (if r.killPending then t
         else { t with records := t.records.set g (some { r with killPending := true, outcome := .killed }) })
      else t.finish g .killed := by
    unfold GalleyTable.kill GalleyTable.modify
    rw [hr]
    dsimp only
    cases hs : r.state <;> first | rfl | contradiction
  rw [hkill]
  refine ⟨fun h => ?_, fun h => ?_, fun k hk => ?_, ?_⟩
  · rw [if_neg h, hfin]
    exact ⟨by simp, rfl, rfl⟩
  · rw [if_pos h]
    by_cases hp : r.killPending = true
    · rw [if_pos hp, if_pos hp, hr]
      exact ⟨by rw [← hp], rfl, rfl⟩
    · rw [if_neg hp, if_neg hp]
      exact ⟨by simp, rfl, rfl⟩
  · split
    · split
      · rfl
      · exact set_other _ (Ne.symm hk) _
    · rw [hfin]
      show ((t.records.set g _).set g _)[k] = _
      rw [set_other _ (Ne.symm hk), set_other _ (Ne.symm hk)]
  · split
    · split <;> rfl
    · rw [hfin]

end Sys2Proof.Machine
end

