-- ==== Sys2Proof/Laws/Memory.lean ====
section
/-! SUPPORT. The laws of the font store's memories: a read after a write, and the canonical form kept by every
operation. -/

namespace Sys2Proof.Machine

/-- The addresses of a memory all lie above one. -/
def Memory.above (m : Memory) (a : Nat) : Prop := ∀ c ∈ m, a < c.1

theorem readMemory_above {m : Memory} {a : Nat} (h : m.above a) : readMemory m a = Config.blankWord := by
  induction m with
  | nil => rfl
  | cons c rest ih =>
    obtain ⟨b, w⟩ := c
    have hb : a < b := h (b, w) (by simp)
    have hne : b ≠ a := by omega
    simp only [readMemory, if_neg hne]
    exact ih fun d hd => h d (by simp [hd])

theorem above_of_cons {b : Nat} {w : Word} {rest : Memory} (h : ((b, w) :: rest : Memory).Pairwise fun x y => x.1 < y.1) :
    Memory.above rest b := fun c hc => (List.pairwise_cons.1 h).1 c hc

theorem readMemory_writeMemory_same {m : Memory} (h : m.Pairwise fun x y => x.1 < y.1) (a : Nat) (w : Word) :
    readMemory (writeMemory m a w) a = w := by
  induction m with
  | nil =>
    by_cases hw : w = Config.blankWord <;> simp [writeMemory, hw, readMemory]
  | cons c rest ih =>
    obtain ⟨b, v⟩ := c
    have hrest := (List.pairwise_cons.1 h).2
    have hab := above_of_cons h
    simp only [writeMemory]
    by_cases h1 : a < b
    · have hall : Memory.above ((b, v) :: rest) a := by
        intro c hc
        rcases List.mem_cons.1 hc with rfl | hc
        · exact h1
        · exact Nat.lt_trans h1 (hab c hc)
      by_cases hw : w = Config.blankWord
      · simp only [if_pos h1, if_pos hw]
        rw [readMemory_above hall, hw]
      · simp [if_pos h1, if_neg hw, readMemory]
    · by_cases h2 : a = b
      · subst h2
        by_cases hw : w = Config.blankWord
        · simp only [if_neg h1, if_pos hw, if_true]
          rw [readMemory_above hab, hw]
        · simp [if_neg hw, readMemory]
      · have h3 : b ≠ a := fun e => h2 e.symm
        simp only [if_neg h1, if_neg h2, readMemory, if_neg h3]
        exact ih hrest

theorem readMemory_writeMemory_other {m : Memory} {a b : Nat} (hne : a ≠ b) (w : Word) :
    readMemory (writeMemory m a w) b = readMemory m b := by
  induction m with
  | nil => by_cases hw : w = Config.blankWord <;> simp [writeMemory, hw, readMemory, hne]
  | cons c rest ih =>
    obtain ⟨d, v⟩ := c
    simp only [writeMemory]
    by_cases h1 : a < d
    · by_cases hw : w = Config.blankWord
      · simp [if_pos h1, if_pos hw]
      · simp [if_pos h1, if_neg hw, readMemory, hne]
    · by_cases h2 : a = d
      · subst h2
        by_cases hw : w = Config.blankWord <;> simp [hw, readMemory, hne]
      · by_cases h3 : d = b
        · simp only [if_neg h1, if_neg h2, readMemory, if_pos h3]
        · simp only [if_neg h1, if_neg h2, readMemory, if_neg h3, ih]

theorem mem_writeMemory {m : Memory} {a : Nat} {w : Word} {c : Nat × Word} (h : c ∈ writeMemory m a w) :
    c ∈ m ∨ (c = (a, w) ∧ w ≠ Config.blankWord) := by
  induction m with
  | nil =>
    by_cases hw : w = Config.blankWord
    · simp [writeMemory, hw] at h
    · simp [writeMemory, hw] at h; exact .inr ⟨h, hw⟩
  | cons d rest ih =>
    obtain ⟨b, v⟩ := d
    simp only [writeMemory] at h
    split at h
    · split at h
      · exact .inl h
      · next hw =>
        rcases List.mem_cons.1 h with h | h
        · exact .inr ⟨h, hw⟩
        · exact .inl h
    · split at h
      · split at h
        · exact .inl (List.mem_cons_of_mem _ h)
        · next hw =>
          rcases List.mem_cons.1 h with h | h
          · exact .inr ⟨h, hw⟩
          · exact .inl (List.mem_cons_of_mem _ h)
      · rcases List.mem_cons.1 h with h | h
        · exact .inl (h ▸ List.mem_cons_self)
        · rcases ih h with h | h
          · exact .inl (List.mem_cons_of_mem _ h)
          · exact .inr h

theorem writeMemory_wf {m : Memory} {a : Nat} (hm : Memory.wf m) (ha : a < Config.bankWords) (w : Word) :
    Memory.wf (writeMemory m a w) := by
  refine ⟨?_, ?_⟩
  · induction m with
    | nil => by_cases hw : w = Config.blankWord <;> simp [writeMemory, hw]
    | cons c rest ih =>
      obtain ⟨b, v⟩ := c
      obtain ⟨hp, hc⟩ := hm
      have hrest := (List.pairwise_cons.1 hp).2
      have hab := above_of_cons hp
      have hrw : Memory.wf rest := ⟨hrest, fun c hcm => hc c (by simp [hcm])⟩
      simp only [writeMemory]
      by_cases h1 : a < b
      · by_cases hw : w = Config.blankWord
        · simpa [if_pos h1, if_pos hw] using hp
        · simp only [if_pos h1, if_neg hw]
          refine List.pairwise_cons.2 ⟨?_, hp⟩
          intro d hd
          rcases List.mem_cons.1 hd with rfl | hd
          · exact h1
          · exact Nat.lt_trans h1 (hab d hd)
      · by_cases h2 : a = b
        · subst h2
          by_cases hw : w = Config.blankWord
          · simpa [hw] using hrest
          · simp only [if_neg h1, if_neg hw, if_true]
            exact List.pairwise_cons.2 ⟨hab, hrest⟩
        · simp only [if_neg h1, if_neg h2]
          refine List.pairwise_cons.2 ⟨?_, ih hrw⟩
          intro d hd
          rcases mem_writeMemory hd with hd | ⟨rfl, -⟩
          · exact hab d hd
          · show b < a
            omega
  · intro c hc
    rcases mem_writeMemory hc with hc | ⟨rfl, hw⟩
    · exact hm.2 c hc
    · exact ⟨ha, hw⟩

theorem writeWords_wf {ws : List Word} {m : Memory} {a : Nat} (hm : Memory.wf m)
    (ha : a + ws.length ≤ Config.bankWords) : Memory.wf (writeWords m a ws) := by
  induction ws generalizing m a with
  | nil => exact hm
  | cons w ws ih =>
    simp only [List.length_cons] at ha
    exact ih (writeMemory_wf hm (by omega) w) (by omega)

theorem memoryOf_wf (cells : List (Nat × Word)) : Memory.wf (memoryOf cells) := by
  induction cells with
  | nil => exact ⟨List.Pairwise.nil, by simp [memoryOf]⟩
  | cons c rest ih =>
    obtain ⟨a, w⟩ := c
    by_cases h : a < Config.bankWords
    · simpa [memoryOf, h] using writeMemory_wf ih h w
    · simpa [memoryOf, h] using ih

theorem readMemory_writeWords_other {ws : List Word} {m : Memory} {a b : Nat} (h : b < a ∨ a + ws.length ≤ b) :
    readMemory (writeWords m a ws) b = readMemory m b := by
  induction ws generalizing m a with
  | nil => rfl
  | cons w ws ih =>
    simp only [List.length_cons] at h
    rw [writeWords, ih (by omega), readMemory_writeMemory_other (by omega)]

theorem readMemory_writeWords_stored {ws : List Word} {m : Memory} {a : Nat} (hm : Memory.wf m)
    (ha : a + ws.length ≤ Config.bankWords) (k : Nat) (hk : k < ws.length) :
    readMemory (writeWords m a ws) (a + k) = ws.getD k 0#16 := by
  induction ws generalizing m a k with
  | nil => simp at hk
  | cons w ws ih =>
    simp only [List.length_cons] at ha hk
    have hw := writeMemory_wf hm (show a < Config.bankWords by omega) w
    cases k with
    | zero =>
      rw [writeWords, readMemory_writeWords_other (by omega)]
      simpa using readMemory_writeMemory_same hm.1 a w
    | succ k =>
      rw [writeWords, show a + (k + 1) = a + 1 + k by omega, ih hw (by omega) k (by omega)]
      simp

end Sys2Proof.Machine
end

