-- ==== Sys2Proof/Laws/Port.lean ====
section
/-! SUPPORT. What the library port does with words: taking them one after another, and keeping them offered while it is
busy (R154, log 5). -/

namespace Sys2Proof.Machine

/-- The port takes words in READY and TAKING alone. -/
theorem PortPhase.takes_or_busy (ph : PortPhase) :
    (ph = .ready ∨ ∃ ws, ph = .taking ws) ∨ (∃ op, ph = .acting op) ∨ ∃ r, ph = .responding r := by
  cases ph
  · exact .inl (.inl rfl)
  · exact .inl (.inr ⟨_, rfl⟩)
  · exact .inr (.inl ⟨_, rfl⟩)
  · exact .inr (.inr ⟨_, rfl⟩)

@[simp] theorem State.takeWords_nil (s : State) : s.takeWords [] = s := rfl

@[simp] theorem State.takeWords_cons (s : State) (w : Word) (ws : List Word) :
    s.takeWords (w :: ws) = (s.takeWord w).takeWords ws := rfl

theorem State.takeWords_append (s : State) (ws vs : List Word) :
    s.takeWords (ws ++ vs) = (s.takeWords ws).takeWords vs := by
  induction ws generalizing s with
  | nil => rfl
  | cons w ws ih => exact ih (s.takeWord w)

@[simp] theorem State.keepOffered_nil (s : State) : s.keepOffered [] = s := by
  simp [State.keepOffered]

@[simp] theorem State.keepOffered_keepOffered (s : State) (ws vs : List Word) :
    (s.keepOffered ws).keepOffered vs = s.keepOffered (ws ++ vs) := by
  simp [State.keepOffered]

theorem State.takeWord_ready {s : State} (h : s.port.phase = .ready) (w : Word) : s.takeWord w = s.takeBlock [w] := by
  simp only [State.takeWord, h]

theorem State.takeWord_taking {s : State} {ws : List Word} (h : s.port.phase = .taking ws) (w : Word) :
    s.takeWord w = s.takeBlock (ws ++ [w]) := by
  simp only [State.takeWord, h]

theorem State.takeWord_busy {s : State} (h : (∃ op, s.port.phase = .acting op) ∨ ∃ r, s.port.phase = .responding r)
    (w : Word) : s.takeWord w = s.keepOffered [w] := by
  rcases h with ⟨_, h⟩ | ⟨_, h⟩ <;> simp only [State.takeWord, h]

/-- A busy port keeps all the words it is offered, in order. -/
theorem State.takeWords_busy {s : State}
    (h : (∃ op, s.port.phase = .acting op) ∨ ∃ r, s.port.phase = .responding r) (ws : List Word) :
    s.takeWords ws = s.keepOffered ws := by
  induction ws generalizing s with
  | nil => exact s.keepOffered_nil.symm
  | cons w ws ih =>
    rw [State.takeWords_cons, State.takeWord_busy h, ih (s := s.keepOffered [w]) h, State.keepOffered_keepOffered]
    rfl

/-- COMMAND_BLOCK_WORD one after another is the taking of the words. -/
theorem execAll_words (ws : List Word) (s : State) :
    execAll (ws.map Instr.commandBlockWord) s = .next (s.takeWords ws) := by
  induction ws generalizing s with
  | nil => rfl
  | cons w ws ih => exact ih (s.takeWord w)

/-- The row that offers a command's block is the offer of that command. -/
theorem LibCommand.exec_instr (c : LibCommand) (s : State) : exec c.instr s = .next (s.offer c) := by
  cases c <;> rfl

end Sys2Proof.Machine
end

