-- ==== Sys2Proof/Laws/Reactions.lean ====
section
/-! SUPPORT. What the reactions that complete an event leave alone (log 7): every field but the Galley Table, the links'
transmitters and measure slots, the bus's holder, the Exposure Controller and the cause STORE STALLED. -/

namespace Sys2Proof.Machine

/-! ## The bus -/

theorem State.giveBus_eq (s : State) :
    s.giveBus = { s with bus := { s.bus with holder := s.giveBus.bus.holder, last := s.giveBus.bus.last } } := by
  unfold State.giveBus
  dsimp only
  split
  · rfl
  · split <;> rfl

/-! ## The walk and the selection round -/

theorem State.wakeWalk_eq (s : State) :
    s.wakeWalk = { s with table := s.wakeWalk.table, imaging := s.wakeWalk.imaging } := by
  unfold State.wakeWalk
  split <;> rfl

theorem State.selectionRound_eq (s : State) :
    s.selectionRound = { s with table := s.selectionRound.table, imaging := s.selectionRound.imaging } := by
  unfold State.selectionRound
  split
  · split <;> rfl
  · rfl

/-! ## Replies -/

/-- A reply taken changes no receiver and no setting context. -/
theorem takeReply_link (t : GalleyTable) (i : Fin 4) (l : Link) :
    (takeReply t i l).2.rx = l.rx ∧ (takeReply t i l).2.setting = l.setting := by
  unfold takeReply
  split
  · split
    · exact ⟨rfl, rfl⟩
    · split
      · exact ⟨rfl, rfl⟩
      · split <;> exact ⟨rfl, rfl⟩
  · exact ⟨rfl, rfl⟩

theorem State.replyOn_eq (s : State) (i : Fin 4) :
    s.replyOn i = { s with table := (s.replyOn i).table, links := (s.replyOn i).links } := rfl

theorem State.replyOn_link (s : State) (i j : Fin 4) :
    (s.replyOn i).links[j].rx = s.links[j].rx ∧ (s.replyOn i).links[j].setting = s.links[j].setting := by
  by_cases h : i = j
  · subst h
    simpa [State.replyOn] using takeReply_link s.table i s.links[i]
  · simp only [State.replyOn, set_other _ h, and_self]

theorem State.replies_eq (s : State) : s.replies = { s with table := s.replies.table, links := s.replies.links } := rfl

theorem State.replies_link (s : State) (j : Fin 4) :
    s.replies.links[j].rx = s.links[j].rx ∧ s.replies.links[j].setting = s.links[j].setting := by
  unfold State.replies
  have h0 := s.replyOn_link 0 j
  have h1 := (s.replyOn 0).replyOn_link 1 j
  have h2 := ((s.replyOn 0).replyOn 1).replyOn_link 2 j
  have h3 := (((s.replyOn 0).replyOn 1).replyOn 2).replyOn_link 3 j
  exact ⟨by rw [h3.1, h2.1, h1.1, h0.1], by rw [h3.2, h2.2, h1.2, h0.2]⟩

/-! ## The whole -/

theorem State.settle_eq (s : State) :
    s.settle = { s with
      table := s.settle.table, links := s.settle.links, imaging := s.settle.imaging
      bus := { s.bus with holder := s.settle.bus.holder, last := s.settle.bus.last }
      attention := { s.attention with storeStalled := s.settle.attention.storeStalled } } := by
  unfold State.settle State.noticeStall
  dsimp only
  rw [State.replies_eq, State.giveBus_eq, State.selectionRound_eq, State.wakeWalk_eq]
  dsimp only
  split <;> rfl

/-- The bus and the Exposure Controller stand after the reactions as the giving of the bus left them. -/
theorem State.noticeStall_eq (s : State) :
    s.noticeStall = { s with
      table := { s.table with stalled := s.noticeStall.table.stalled }
      attention := { s.attention with storeStalled := s.noticeStall.attention.storeStalled } } := by
  unfold State.noticeStall
  dsimp only
  split <;> rfl

theorem State.settle_bus (s : State) : s.settle.bus = s.wakeWalk.selectionRound.giveBus.bus := by
  unfold State.settle
  rw [State.noticeStall_eq, State.replies_eq]

theorem State.settle_imaging (s : State) : s.settle.imaging = s.wakeWalk.selectionRound.giveBus.imaging := by
  unfold State.settle
  rw [State.noticeStall_eq, State.replies_eq]

@[simp] theorem State.settle_slots (s : State) : s.settle.slots = s.slots := by rw [s.settle_eq]
@[simp] theorem State.settle_copy (s : State) : s.settle.copy = s.copy := by rw [s.settle_eq]
@[simp] theorem State.settle_classes (s : State) : s.settle.classes = s.classes := by rw [s.settle_eq]
@[simp] theorem State.settle_rotation (s : State) : s.settle.rotation = s.rotation := by rw [s.settle_eq]
@[simp] theorem State.settle_banks (s : State) : s.settle.banks = s.banks := by rw [s.settle_eq]
@[simp] theorem State.settle_stationRead (s : State) : s.settle.stationRead = s.stationRead := by rw [s.settle_eq]
@[simp] theorem State.settle_port (s : State) : s.settle.port = s.port := by rw [s.settle_eq]
@[simp] theorem State.settle_free (s : State) : s.settle.free = s.free := by rw [s.settle_eq]
@[simp] theorem State.settle_pending (s : State) : s.settle.pending = s.pending := by rw [s.settle_eq]
@[simp] theorem State.settle_holdRequest (s : State) : s.settle.bus.holdRequest = s.bus.holdRequest := by
  rw [s.settle_eq]

/-- The reactions set no cause but STORE STALLED, and clear none. -/
theorem State.settle_attention (s : State) :
    s.settle.attention = { s.attention with storeStalled := s.settle.attention.storeStalled } := by
  conv_lhs => rw [s.settle_eq]

/-- The reactions touch no receiver and no setting context. -/
theorem State.settle_link (s : State) (j : Fin 4) :
    s.settle.links[j].rx = s.links[j].rx ∧ s.settle.links[j].setting = s.links[j].setting := by
  have h : s.settle.links = s.wakeWalk.selectionRound.giveBus.replies.links := rfl
  have h1 := s.wakeWalk.selectionRound.giveBus.replies_link j
  rw [h, h1.1, h1.2, State.giveBus_eq, State.selectionRound_eq, State.wakeWalk_eq]
  exact ⟨rfl, rfl⟩

end Sys2Proof.Machine
end

