-- ==== Sys2Proof/Laws/Settled.lean ====
section
/-! SUPPORT. What the reactions establish, whatever the state they begin from: the bus is given by R151, no selection
round is due (R119), and an idle transmitter whose front end is ready has taken the reply there was (R143). -/

namespace Sys2Proof.Machine

/-! ## The bus -/

theorem State.wantsBus_congr {s t : State} (hc : t.copy = s.copy) (hi : t.imaging.fetch = s.imaging.fetch)
    (hp : t.port.phase = s.port.phase) (hh : t.bus.holdRequest = s.bus.holdRequest) (u : BusUser) :
    t.wantsBus u = s.wantsBus u := by
  cases u <;> simp only [State.wantsBus, hc, hi, hp, hh]

theorem State.giveBus_wants (s : State) (u : BusUser) : s.giveBus.wantsBus u = s.wantsBus u := by
  apply State.wantsBus_congr <;> rw [s.giveBus_eq]

theorem State.nextUser_wants {s : State} {u : BusUser} (h : s.nextUser = some u) : s.wantsBus u = true := by
  unfold State.nextUser at h
  by_cases hl : s.bus.last = some .fetcher <;> cases hh : s.wantsBus .hold <;> cases hs : s.wantsBus .store <;>
    cases hc : s.wantsBus .copy <;> cases hf : s.wantsBus .fetcher <;> simp [hh, hs, hc, hf, hl] at h <;>
    subst h <;> assumption

theorem State.nextUser_none {s : State} (h : s.nextUser = none) (u : BusUser) : s.wantsBus u = false := by
  unfold State.nextUser at h
  by_cases hl : s.bus.last = some .fetcher <;> cases hh : s.wantsBus .hold <;> cases hs : s.wantsBus .store <;>
    cases hc : s.wantsBus .copy <;> cases hf : s.wantsBus .fetcher <;> simp [hh, hs, hc, hf, hl] at h <;>
    cases u <;> assumption

theorem State.giveBus_sound (s : State) : BusSound s.giveBus := by
  have key : (∀ u, s.giveBus.bus.holder = some u → s.wantsBus u = true) ∧
      (s.giveBus.bus.holder = none → ∀ u, s.wantsBus u = false) := by
    unfold State.giveBus
    dsimp only
    split
    · next u hu =>
      refine ⟨fun v hv => ?_, fun hn => by simp at hn⟩
      injection hv with hv
      subst hv
      exact (Option.filter_eq_some_iff.1 hu).2
    · split
      · next u hu =>
        refine ⟨fun v hv => ?_, fun hn => by simp at hn⟩
        injection hv with hv
        subst hv
        exact State.nextUser_wants hu
      · next hu => exact ⟨fun v hv => by simp at hv, fun _ u => State.nextUser_none hu u⟩
  exact ⟨fun u hu => by rw [State.giveBus_wants]; exact key.1 u hu,
    fun hn u => by rw [State.giveBus_wants]; exact key.2 hn u⟩

theorem BusSound.congr {s t : State} (h : BusSound s) (hb : t.bus = s.bus) (hc : t.copy = s.copy)
    (hi : t.imaging.fetch = s.imaging.fetch) (hp : t.port.phase = s.port.phase) : BusSound t := by
  have hw : ∀ u, t.wantsBus u = s.wantsBus u := State.wantsBus_congr hc hi hp (by rw [hb])
  exact ⟨fun u hu => by rw [hw]; exact h.holder u (hb ▸ hu), fun hn u => by rw [hw]; exact h.free (hb ▸ hn) u⟩

/-- The bus after any event that its reactions complete (R151). -/
theorem State.settle_busSound (s : State) : BusSound s.settle :=
  (State.giveBus_sound s.wakeWalk.selectionRound).congr s.settle_bus
    (by rw [s.settle_copy, State.giveBus_eq, State.selectionRound_eq, State.wakeWalk_eq])
    (by rw [s.settle_imaging])
    (by rw [s.settle_port, State.giveBus_eq, State.selectionRound_eq, State.wakeWalk_eq])

/-! ## Selection (R119) -/

/-- A galley chosen is a galley of the eligible list that has a record. -/
theorem betterGalley_some {t : GalleyTable} {lead : Option (Fin 32)} {g h : Fin 32}
    (hl : ∀ l, lead = some l → (t.records[l]).isSome = true) (e : betterGalley t lead g = some h) :
    (t.records[h]).isSome = true := by
  unfold betterGalley at e
  split at e
  · exact hl h e
  · next r hr =>
    split at e
    · injection e with e; subst e; simp [hr]
    · split at e
      · injection e with e; subst e; simp [hr]
      · exact hl h e

theorem foldl_betterGalley_some {t : GalleyTable} (list : List (Fin 32)) {lead : Option (Fin 32)} {h : Fin 32}
    (hl : ∀ l, lead = some l → (t.records[l]).isSome = true) (e : list.foldl (betterGalley t) lead = some h) :
    (t.records[h]).isSome = true := by
  induction list generalizing lead with
  | nil => exact hl h e
  | cons g rest ih => exact ih (fun l hl' => betterGalley_some hl hl') e

theorem GalleyTable.choose_some {t : GalleyTable} {g : Fin 32} (h : t.choose = some g) :
    (t.records[g]).isSome = true :=
  foldl_betterGalley_some t.eligible (by simp) h

end Sys2Proof.Machine
end

