-- ==== Sys2Proof/Laws/Replies.lean ====
section
/-! SUPPORT. What the reactions do on one link: they take the one reply there is, by the records of that link alone (R127,
R143). -/

namespace Sys2Proof.Machine

/-- Two Galley Tables hold the same records of a link. -/
def SameRecords (i : Fin 4) (t t' : GalleyTable) : Prop :=
  ∀ (g : Fin 32) (r : Galley), r.link = i → (t.records[g] = some r ↔ t'.records[g] = some r)

theorem SameRecords.refl (i : Fin 4) (t : GalleyTable) : SameRecords i t t := fun _ _ _ => Iff.rfl

theorem SameRecords.trans {i : Fin 4} {t u v : GalleyTable} (a : SameRecords i t u) (b : SameRecords i u v) :
    SameRecords i t v := fun g r h => (a g r h).trans (b g r h)

theorem SameRecords.marked {i : Fin 4} {t t' : GalleyTable} (h : SameRecords i t t') : t.marked i = t'.marked i := by
  have one {u v : GalleyTable} (h : SameRecords i u v) (g : Fin 32)
      (hu : (match u.records[g] with
        | none => false
        | some r => decide (r.link = i) && r.mark) = true) :
      (match v.records[g] with
        | none => false
        | some r => decide (r.link = i) && r.mark) = true := by
    cases hr : u.records[g] with
    | none => rw [hr] at hu; cases hu
    | some r =>
      rw [hr] at hu
      have hl : r.link = i := by
        simp only [Bool.and_eq_true, decide_eq_true_eq] at hu
        exact hu.1
      rw [(h g r hl).1 hr]
      exact hu
  unfold GalleyTable.marked
  congr 1
  funext g
  rw [Bool.eq_iff_iff]
  exact ⟨one h g, one (fun g r hr => (h g r hr).symm) g⟩

/-- A record marked on a link is a record of that link. -/
theorem GalleyTable.marked_some {t : GalleyTable} {i : Fin 4} {g : Fin 32} (h : t.marked i = some g) :
    ∃ r, t.records[g] = some r ∧ r.link = i := by
  unfold GalleyTable.marked at h
  have := List.find?_some h
  cases hr : t.records[g] with
  | none => simp [hr] at this
  | some r =>
    simp [hr] at this
    exact ⟨r, rfl, this.1⟩

/-- A reply taken on another link changes no record of this one. -/
theorem takeReply_others {i j : Fin 4} (h : j ≠ i) (t : GalleyTable) (l : Link) : SameRecords i t (takeReply t j l).1 := by
  unfold takeReply
  split
  · split
    · exact .refl _ _
    · split
      · exact .refl _ _
      · next g hg =>
        obtain ⟨r, hr, hl⟩ := GalleyTable.marked_some hg
        rw [hr]
        intro k q hq
        show _ ↔ (t.modify g _).records[k] = some q
        unfold GalleyTable.modify
        rw [hr]
        by_cases hk : g = k
        · subst hk
          have h1 : r ≠ q := by
            rintro rfl
            exact h (hl.symm.trans hq)
          have h2 : ({ r with mark := false } : Galley) ≠ q := by
            rintro rfl
            exact h (hl.symm.trans hq)
          simp [hr, h1, h2]
        · show _ ↔ (t.records.set g _)[k] = _
          rw [set_other _ hk]
  · exact .refl _ _

/-- What has happened on link i when the replies of some links have been taken: nothing, or its own reply. -/
structure ReplyTaken (s u : State) (i : Fin 4) (own : Bool) : Prop where
  before : own = false → u.links[i] = s.links[i] ∧ SameRecords i s.table u.table
  done : own = true → ∃ t, SameRecords i s.table t ∧ u.links[i] = (takeReply t i s.links[i]).2 ∧
    SameRecords i (takeReply t i s.links[i]).1 u.table

theorem ReplyTaken.next {s u : State} {i j : Fin 4} {own : Bool} (h : ReplyTaken s u i own) (hj : j = i → own = false) :
    ReplyTaken s (u.replyOn j) i (own || decide (j = i)) := by
  by_cases e : j = i
  · subst e
    have := hj rfl
    subst this
    obtain ⟨hl, ht⟩ := h.before rfl
    refine ⟨by simp, fun _ => ⟨u.table, ht, ?_, ?_⟩⟩
    · show (u.links.set j (takeReply u.table j u.links[j]).2)[j] = _
      rw [hl]
      simp
    · show SameRecords j _ (takeReply u.table j u.links[j]).1
      rw [hl]
      exact .refl _ _
  · have hl : (u.replyOn j).links[i] = u.links[i] := set_other _ e _
    have ht := takeReply_others e u.table u.links[j]
    simp only [e, decide_false, Bool.or_false]
    refine ⟨fun ho => ?_, fun ho => ?_⟩
    · obtain ⟨a, b⟩ := h.before ho
      exact ⟨hl.trans a, b.trans ht⟩
    · obtain ⟨t, a, b, c⟩ := h.done ho
      exact ⟨t, a, hl.trans b, c.trans ht⟩

theorem State.replies_taken (s : State) (i : Fin 4) : ReplyTaken s s.replies i true := by
  have h0 : ReplyTaken s s i false := ⟨fun _ => ⟨rfl, .refl _ _⟩, fun h => by cases h⟩
  have h1 := h0.next (j := 0) fun _ => rfl
  have h2 := h1.next (j := 1) (by rintro rfl; rfl)
  have h3 := h2.next (j := 2) (by rintro rfl; rfl)
  have h4 := h3.next (j := 3) (by rintro rfl; rfl)
  have all : ∀ k : Fin 4, ((((false || decide ((0 : Fin 4) = k)) || decide ((1 : Fin 4) = k)) ||
      decide ((2 : Fin 4) = k)) || decide ((3 : Fin 4) = k)) = true := by decide
  rw [all i] at h4
  exact h4

/-- The link after the reactions of an event: it has taken the reply that its own records give, as the walk and the
selection round have left them (R143). -/
theorem State.settle_reply (s : State) (i : Fin 4) :
    ∃ t, SameRecords i s.wakeWalk.selectionRound.table t ∧ s.settle.links[i] = (takeReply t i s.links[i]).2 ∧
      SameRecords i (takeReply t i s.links[i]).1 s.settle.table := by
  have hl : s.wakeWalk.selectionRound.giveBus.links = s.links := by
    rw [State.giveBus_eq, State.selectionRound_eq, State.wakeWalk_eq]
  have ht : s.wakeWalk.selectionRound.giveBus.table = s.wakeWalk.selectionRound.table := by rw [State.giveBus_eq]
  obtain ⟨t, a, b, c⟩ := (s.wakeWalk.selectionRound.giveBus.replies_taken i).done rfl
  rw [show s.wakeWalk.selectionRound.giveBus.links[i] = s.links[i] by rw [hl]] at b c
  rw [ht] at a
  refine ⟨t, a, b, fun g r h => (c g r h).trans ?_⟩
  show _ ↔ s.wakeWalk.selectionRound.giveBus.replies.noticeStall.table.records[g] = _
  rw [State.noticeStall_eq]

end Sys2Proof.Machine
end

