-- ==== Sys2Proof/Laws/Turns.lean ====
section
/-! SUPPORT. What a turn of the Setter is, in the words of the statements: the entry taken, the word dealt with, what the
turn leaves alone, a record asked for a line, and the header fields (R39, R87, R114, R117, R134, R138). -/

namespace Sys2Proof.Machine

/-! ## The turn -/

theorem exec_setterTurn {s : State} {i : Fin 4} {b : Bench} (hi : s.rotation = i) (hb : (s.bench i).turn = some b) :
    exec .setterTurn s = .next (State.settle { s.putBench b with rotation := i + 1 }) := by
  simp [exec, execSetterTurn, State.turn, linksFrom, State.firstTurn, hi, hb]

theorem State.putBench_link {s : State} {i : Fin 4} {b : Bench} (h : b.id = i) :
    ({ s.putBench b with rotation := i + 1 } : State).links[i] = b.link := by
  subst h
  simp [State.putBench]

theorem TurnFrame.of_bench {s : State} {i : Fin 4} {b : Bench} {rest : List RingEntry} (hid : b.id = i)
    (hs : b.slots = s.slots)
    (hrx : b.link.rx = { s.links[i].rx with ring := rest, readyOut := b.link.rx.readyOut, stray := b.link.rx.stray })
    (htx : b.link.tx = s.links[i].tx) : TurnFrame s { s.putBench b with rotation := i + 1 } i rest := by
  subst hid
  exact ⟨rfl, by simpa [State.putBench] using hrx, by simpa [State.putBench] using htx,
    fun j hj => set_other _ (Ne.symm hj) _, hs, rfl, rfl, rfl, rfl, rfl⟩

/-- The Setter's view of a link once the entry at the head of the ring has been taken, its word not yet dealt with. -/
def Bench.taken (b : Bench) (drop : Nat) (rest : List RingEntry) : Bench :=
  { b with link := { b.link with rx := { b.link.rx with
      ring := rest
      readyOut := if b.link.rx.recv ≠ .disabled ∧ rest.length = Config.readyOnAt then true else b.link.rx.readyOut
      stray := if b.parser = .idle then min (b.link.rx.stray + drop) 65535 else b.link.rx.stray } } }

theorem Bench.turn_word {b : Bench} {c : Option Word} {drop : Nat} {rest : List RingEntry}
    (hr : b.link.rx.ring = { code := c, marker := false, drop := drop } :: rest)
    (hp : b.parser = .idle ∨ b.parser = .header ∨ b.parser = .inGalley ∨ b.parser = .skip ∨ b.parser = .inMeasure)
    (hm : b.measureMustWait { code := c, marker := false, drop := drop } = false) :
    b.turn = some ((b.taken drop rest).dealWord c) := by
  have ht : b.turn = some (b.takeEntry { code := c, marker := false, drop := drop }) := by
    unfold Bench.turn
    rcases hp with h | h | h | h | h <;> simp [h, hr]
  rw [ht]
  obtain ⟨classes, slots, table, id, link⟩ := b
  simp only [Bench.takeEntry, hm, Bool.false_eq_true, if_false, Receiver.take, Bench.parser, Bench.strays, Receiver.strays,
    Bench.taken] at hr ⊢
  split <;> simp_all [satAdd, Config.saturation]

theorem WordTurn.exec_eq {s : State} {i : Fin 4} {p : ParserState} {c : Option Word} {drop : Nat}
    {rest : List RingEntry} (h : WordTurn s i p c drop rest)
    (hp : p = .idle ∨ p = .header ∨ p = .inGalley ∨ p = .skip ∨ p = .inMeasure)
    (hm : (s.bench i).measureMustWait { code := c, marker := false, drop := drop } = false) :
    exec .setterTurn s =
      .next (State.settle { s.putBench (((s.bench i).taken drop rest).dealWord c) with rotation := i + 1 }) :=
  exec_setterTurn h.turn (Bench.turn_word h.ring (by rw [show (s.bench i).parser = p from h.parser]; exact hp) hm)

theorem Bench.measureMustWait_of_code {b : Bench} {e : RingEntry} (h : sortWord e.code ≠ .code .measure) :
    b.measureMustWait e = false := by simp [Bench.measureMustWait, h]

/-! ## A record asked for a line (R87, R114, R115) -/

/-- A record asked for a closed line with the work that follows the close, given how that work goes on. -/
theorem Bench.takeRecord_spec {b : Bench} {g : Fin 32} {r : Galley} (hr : b.table.records[g] = some r)
    (line : ClosedLine) (brk : Break) (hb : brk ≠ .galleyStart) (goOn : Bench → Bench)
    (hg : ∀ b' : Bench, b'.table.records[g] ≠ none → b'.link.setting.galley = b.link.setting.galley →
      goOn b' = b'.finishBreak g brk) :
    let c := b.takeRecord g { line := line, rest := .closed brk }
    let b' := if c.2 then goOn c.1 else c.1
    RecordAsked b.table b'.table b.link.setting b'.link.setting g r line brk ∧ b'.id = b.id ∧ b'.slots = b.slots ∧
      b'.classes = b.classes ∧ b'.link = { b.link with setting := b'.link.setting } := by
  have hlim : b.table.limitHolds g = true ↔ AtLineLimit r := by
    unfold GalleyTable.limitHolds
    rw [hr]
    exact r.atLimit_iff
  unfold Bench.takeRecord
  by_cases h1 : AtLineLimit r
  · rw [if_pos (hlim.2 h1)]
    exact ⟨⟨fun _ => ⟨rfl, rfl⟩, fun h => absurd h1 h, fun h => absurd h1 h, fun h => absurd h1 h⟩, rfl, rfl, rfl, rfl⟩
  · rw [if_neg (fun h => h1 (hlim.1 h))]
    by_cases h2 : b.table.freeLines = 0
    · rw [if_pos h2]
      exact ⟨⟨fun h => absurd h h1, fun _ _ => ⟨rfl, rfl⟩, fun _ h => by omega, fun _ h => by omega⟩, rfl, rfl, rfl, rfl⟩
    · rw [if_neg h2]
      obtain ⟨hl, hq, _⟩ := GalleyTable.appendLine_spec hr (Nat.pos_of_ne_zero h2) line
      have hgo := hg (b.appendLine g line)
        (by show (b.table.appendLine g line).records[g] ≠ none; rw [hq]; simp) rfl
      simp only [if_true, hgo]
      by_cases h3 : brk = .galleyEnd
      · subst h3
        exact ⟨⟨fun h => absurd h h1, fun _ h => absurd h h2, fun _ _ h => absurd rfl h, fun _ _ _ =>
          ⟨_, _, hl, hq, GalleyTable.endGalley_spec hq, rfl⟩⟩, rfl, rfl, rfl, rfl⟩
      · have hf : ∀ b' : Bench, b'.finishBreak g brk = b' := by
          intro b'
          cases brk <;> first | rfl | contradiction
        rw [hf]
        exact ⟨⟨fun h => absurd h h1, fun _ h => absurd h h2, fun _ _ _ => ⟨hl, rfl⟩, fun _ _ h => absurd h h3⟩,
          rfl, rfl, rfl, rfl⟩

/-- The break of a code that closes a line goes on to the close. -/
theorem Bench.fill_lineCode {g : Fin 32} {n : Nat} {b : Bench} {brk : Break} {quad : Quad} {flags : LineFlags}
    {r : Galley} {w : Word} (hl : LineCode r w brk quad flags)
    (he : brk = .galleyEnd → b.link.setting.line.elements ≠ []) :
    Bench.fill g r.header (n + 2) b (.breakDue brk) =
      let c := b.closeLine g r.header quad flags (.closed brk)
      if c.2 then Bench.fill g r.header (n + 1) c.1 (.closed brk) else c.1 := by
  cases hl <;> try rfl
  have : b.link.setting.line.elements.isEmpty = false := by
    have := he rfl
    cases hx : b.link.setting.line.elements <;> simp_all
  rw [Bench.fill]
  simp only [this, Bool.false_eq_true, if_false]
  rfl

/-! ## Header fields (R39) -/

theorem takeHeaderWord_field {k : Nat} (hk : k < 16) (c : Option Word) (flags : Word) :
    (takeHeaderWord (k + 1) c flags).1 = (fieldRule (k + 1)).value c ∧
      ∀ e, hasFlag (takeHeaderWord (k + 1) c flags).2 e = true ↔
        hasFlag flags e = true ∨ (e = .charError ∧ c = none) ∨
          (e = .clamped ∧ ∀ w, c = some w → (fieldRule (k + 1)).outside w) := by
  cases c with
  | none =>
    simp only [takeHeaderWord, FieldRule.value, hasFlag_addFlag]
    exact ⟨by revert k; decide, fun e => by simp [or_assoc]⟩
  | some w =>
    have hw : w.toNat < 65536 := w.isLt
    simp only [takeHeaderWord, FieldRule.value, hasFlag_addFlagIf, FieldRule.outside]
    generalize hn : w.toNat = n at *
    have h : clampHeader (k + 1) n =
        (if n < (fieldRule (k + 1)).low then (fieldRule (k + 1)).below
          else if (fieldRule (k + 1)).high < n then (fieldRule (k + 1)).above else n,
         decide (n < (fieldRule (k + 1)).low ∨ (fieldRule (k + 1)).high < n)) := by
      have : k = 0 ∨ k = 1 ∨ k = 2 ∨ k = 3 ∨ k = 4 ∨ k = 5 ∨ k = 6 ∨ k = 7 ∨ k = 8 ∨ k = 9 ∨ k = 10 ∨ k = 11 ∨ k = 12 ∨
          k = 13 ∨ k = 14 ∨ k = 15 := by omega
      rcases this with h | h | h | h | h | h | h | h | h | h | h | h | h | h | h | h <;> subst h <;>
        simp only [clampHeader, clampAbove, clampRange, fieldRule, Nat.reduceAdd] <;> (repeat' split) <;> simp <;> omega
    rw [h]
    exact ⟨rfl, fun e => by simp [hn]⟩

theorem takeHeaderWord_hyphen (c : Option Word) (flags : Word) :
    (takeHeaderWord 17 c flags).1 = hyphenField c ∧
      ∀ e, hasFlag (takeHeaderWord 17 c flags).2 e = true ↔
        hasFlag flags e = true ∨ (e = .charError ∧ c = none) ∨
          (e = .clamped ∧ (c = none ∨ ∃ w, c = some w ∧ w ≠ 0#16 ∧ (w.toNat < 0x20 ∨ 0xFF00 ≤ w.toNat))) := by
  cases c with
  | none => simp [takeHeaderWord, hyphenField, damagedHeader, hasFlag_addFlag, or_assoc]
  | some w =>
    have hz : w.toNat = 0 ↔ w = 0#16 :=
      ⟨fun h => BitVec.eq_of_toNat_eq (by simpa using h), fun h => by rw [h]; rfl⟩
    simp only [takeHeaderWord, hyphenField, clampHeader, hasFlag_addFlagIf]
    refine ⟨?_, fun e => ?_⟩
    · repeat' split
      all_goals first | rfl | omega
    · by_cases h0 : w = 0#16
      · subst h0
        simp
      · have h0' : ¬ w.toNat = 0 := fun h => h0 (hz.1 h)
        simp only [h0', if_false]
        split <;> simp_all

end Sys2Proof.Machine
end

