-- ==== Sys2Proof/Tests/Slice0.lean ====
section
/-! SUPPORT. The session's own tests: the checks of WellFormed refuse ill-formed commands, single steps of the manual's
worked cases, and a witness for the hypotheses of every statement that has some. -/

-- One test after another: begun all at once, the kernel's evaluations would each hold a thread.
set_option Elab.async false

namespace Sys2Proof.Tests

open Sys2Proof Sys2Proof.Machine

/-! ## Small states -/

/-- The state a command leaves; every command answers a next state. -/
def after (c : Instr) (s : State) : State :=
  match exec c s with
  | .next t => t
  | .fault _ => s
  | .refused _ => s

/-- A slot in a state, with a number, a count and a bank; three glyphs. -/
def slotOf (st : SlotState) (number count bank : Nat) : Slot :=
  { emptySlotRecord with
    state := st, fontNumber := number, refCount := count, bank := bank, glyphCount := 3, widths := [36, 24, 30]
    codeMap := [{ code := 0x61#16, isolated := 1, initialForm := 1, medial := 1, finalForm := 1 }]
    outlines := [{ offset := 0, count := 0 }, { offset := 64, count := 3 }, { offset := 70, count := 0 }] }

/-- The reset state with a slot. -/
def withSlot (i : Fin 8) (x : Slot) (s : State) : State := { s with slots := s.slots.set i x }

/-- The reset state with a bank position. -/
def withBank (p : Fin 8) (b : BankPosition) (s : State) : State := { s with banks := s.banks.set p b }

/-- A position with an empty board. -/
def board : BankPosition := { board := some [], cartridge := none, prot := false }

/-- A position with a protected cartridge. -/
def sealed : BankPosition := { board := none, cartridge := some [(0, 0xC3A5#16), (64, 7#16)], prot := true }

/-- The library port in a phase. -/
def inPhase (ph : PortPhase) (s : State) : State := { s with port := { phase := ph, offered := [] } }

/-- The bus with a holder. -/
def heldBy (u : BusUser) (s : State) : State := { s with bus := { s.bus with holder := some u } }

/-- A link changed. -/
def onLink (i : Fin 4) (f : Link → Link) (s : State) : State := { s with links := modifyAt s.links i f }

/-- A link whose ring holds these words. -/
def ringOf (ws : List (Option Word)) : List RingEntry := ws.map fun w => { code := w, marker := false, drop := 0 }

/-- A header's values: galley 500, class 2, deadline 14, measure 24, font 1. -/
def headerVals : List Nat := [500, 2, 14, 0, 0, 24, 22, 1, 20, 20, 12, 18, 30, 2, 0, 2, 0x2D]

/-- A galley of link 1. -/
def galley : Galley := { newGalley 1 headerVals 0#16 with mark := false, useSet := [2] }

/-- A glyph of slot 2 placed. -/
def placed (glyph x : Nat) : PlacedGlyph :=
  { slot := some 2, glyph := glyph, x := x, raise := 0, pointSize := 20, setSize := 20, markOf := false }

/-- A box placed. -/
def box : PlacedGlyph := { placed 0 0 with slot := none }

/-- A line record of galley 7. -/
def lineOf (n : Nat) (glyphs : List PlacedGlyph) : LineRecord :=
  { galley := 7, number := n, advance := 176, quad := .left, flags := noLineFlags, glyphs := glyphs }

/-- A galley record put in the table; its lines come from the pool. -/
def withGalley (g : Fin 32) (r : Galley) (s : State) : State :=
  { s with table :=
      { s.table with records := s.table.records.set g (some r), order := s.table.order ++ [g]
                     freeLines := s.table.freeLines - r.lines.length } }

/-- The Exposure Controller changed. -/
def onUnit (f : Imaging → Imaging) (s : State) : State := { s with imaging := f s.imaging }

/-- A record outstanding for galley 7. -/
def sending (o : Record) (void : Bool) : Imaging → Imaging := fun m =>
  { m with unit := .sending, ready := true, out := some { record := o, void := void }, galley := some 7 }

/-- Slot 2 resident from bank 3, galley 7 exposing with two lines, and the unit sending a record. -/
def filming (o : Record) : State :=
  onUnit (sending o false)
    (withGalley 7 { galley with state := .exposing, lines := [lineOf 1 [placed 1 0, box, placed 2 10], lineOf 2 []] }
      (withSlot 2 (slotOf .resident 1 1 3) (withBank 3 board State.reset)))

/-! ## Ill-formed commands are refused by the check -/

theorem test_write_store_needs_its_words : (Instr.writeStore 1 0 2 [5]).wellFormed = false := by decide

theorem test_write_store_of_no_position_carries_none : (Instr.writeStore 8 0 1 [5]).wellFormed = false := by decide

theorem test_class_list_needs_its_entries : (Instr.loadClassList 1 []).wellFormed = false := by decide

theorem test_class_list_of_49_carries_none :
    (Instr.loadClassList 49 [{ matchWord := 0, careWord := 0, rankWord := 0, kindWord := 0 }]).wellFormed = false := by
  decide

theorem test_bad_command_names_none : (Instr.badCommand 13).wellFormed = false := by decide

theorem test_invalid_answer_is_not_coded : (Instr.unitAnswerInvalid 0x0102).wellFormed = false := by decide

theorem test_contents_rise : (Instr.presenceChange 0 .board (some [(5, 1), (4, 1)])).wellFormed = false := by decide

theorem test_contents_name_no_blank_word :
    (Instr.presenceChange 0 .board (some [(5, 0xFFFF)])).wellFormed = false := by decide

theorem test_contents_lie_in_the_bank :
    (Instr.presenceChange 0 .cartridge (some [(262144, 1)])).wellFormed = false := by decide

theorem test_well_formed_commands_pass :
    (Instr.writeStore 1 0 2 [5, 6]).wellFormed = true ∧ (Instr.writeStore 8 0 1 []).wellFormed = true ∧
      (Instr.badCommand 14).wellFormed = true ∧ (Instr.unitAnswerInvalid 0x0104).wellFormed = true ∧
      (Instr.presenceChange 0 .board (some [(4, 1), (5, 1)])).wellFormed = true := by decide

/-! ## Steps of the worked cases -/

/-- 2.5: of two covering entries the lower priority number wins. -/
theorem test_narrow_entry_wins :
    (classify
      [{ matchValue := 0x3100, careMask := 0xFF00, priority := 3, cls := { script := 2, dir := .right, join := .dual, brk := .ordinary } },
       { matchValue := 0x3140, careMask := 0xFFF0, priority := 1, cls := { script := 2, dir := .right, join := .back, brk := .ordinary } }]
      0x3145).join = .back := by decide

/-- 6.3, 6.7: a run of digits is read left to right inside a right-to-left line. -/
theorem test_digits_in_right_to_left :
    exposureOrder true [(LineElement.space, true), (.elongation 0 1 0 0 0, false), (.elongation 0 2 0 0 0, false)] =
      [.elongation 0 1 0 0 0, .elongation 0 2 0 0 0, .space] := by decide

/-- R132: FF01h arrives as two bytes and stands in the ring as GALLEY START. -/
theorem test_galley_start_from_two_bytes :
    let s := onLink 0 (fun l => { l with rx := { l.rx with recv := .receiving } }) State.reset
    (after (.byteReceived 0 0x01 false false) (after (.byteReceived 0 0xFF false false) s)).links[0].rx.ring =
      ringOf [some 0xFF01#16] := by decide +kernel

/-- 11.2: the seven words of a measure result. -/
theorem test_result_words :
    resultWords { width := 70000, glyphs := 7, missing := 1, flags := 0x40#16 } =
      [0x0200#16, 1#16, 4464#16, 0#16, 4375#16, 0x0701#16, 0x40#16] := by decide

/-- 11.5: a width above 216 fails the copy with BAD HEADER. -/
theorem test_wide_width_fails :
    addTableEntry [1, 1, 0, 0, 0, 0, 0, 0, 0] emptySlotRecord (fun _ => 217#16) = .error .badHeader := by
  decide +kernel

/-- 10.9: a miss with a full mirror takes the least recent entry. -/
theorem test_full_mirror_evicts :
    (chooseEntry (entryIds.map fun n => { entry := 63 - n, slot := 2, glyph := n.val, blank := false })).1 = 63 := by
  decide +kernel

/-! ## Witnesses: steps and resets -/

theorem test_step_idles : State.reset.pending = [] ∧ step State.reset = .next State.reset := ⟨rfl, rfl⟩

theorem test_step_takes_the_front :
    step (State.reset.withPending [.unitReadyOn, .unitAck]) = exec .unitReadyOn (State.reset.withPending [.unitAck]) := rfl

theorem test_library_reset_in_ready :
    let s := withSlot 2 (slotOf .resident 1 4 3) State.reset
    s.port.phase = .ready ∧ (after .libraryReset s).slots[2] = slotOf .resident 1 0 3 := by decide +kernel

theorem test_power_on_cuts_a_write :
    let s := heldBy .store (inPhase (.acting (.write 3 0x3FFFE [8, 9])) (withBank 3 board State.reset))
    let refused := withSlot 7 (slotOf .resident 1 0 3) s
    s.bus.holder = some .store ∧ s.port.phase = .acting (.write 3 0x3FFFE [8, 9]) ∧ s.banks[3].board = some [] ∧
      Memory.wf [] ∧ 0x3FFFE + 2 ≤ Config.bankWords ∧ guarded refused.slots 3 = true ∧
      (after .powerOnReset refused).banks[3].board = some [] ∧
      (s.banks[4].board = none ∧ (after .powerOnReset s).banks[4].board = none) := by decide +kernel

/-! ## Witnesses: fonts -/

theorem test_install_font_clauses :
    let loading := withSlot 7 (slotOf .loading 0 0 0) State.reset
    let full : State := { State.reset with slots := Vector.replicate 8 (slotOf .retiring 1 1 0) }
    let free := withBank 7 sealed (withSlot 0 (slotOf .resident 1 0 0) State.reset)
    (loading.port.phase = .ready ∧ ∃ i : Fin 8, loading.slots[i].state = .loading) ∧
      (full.port.phase = .ready ∧ ∀ i : Fin 8, full.slots[i].state ≠ .loading ∧ full.slots[i].state ≠ .empty) ∧
      (∀ j : Fin 8, free.slots[j].state ≠ .loading) ∧ free.slots[1].state = .empty ∧
      (∀ j : Fin 8, j < 1 → free.slots[j].state ≠ .empty) ∧ (7#16).toNat = (7 : Fin 8).val ∧
      free.banks[7].present = true ∧
      (after (.installFont 7 0xFFFFFFFF) free).slots[1].state = .loading := by decide +kernel

theorem test_install_font_without_position :
    (∀ j : Fin 8, State.reset.slots[j].state ≠ .loading) ∧ State.reset.slots[0].state = .empty ∧ 7 < (8#16).toNat ∧
      State.reset.banks[7].present = false ∧
      (after (.installFont 8 0) State.reset).attention.installFailed = some .outOfBank ∧
      (after (.installFont 7 0) State.reset).slots = State.reset.slots := by decide +kernel

/-- A copy into slot 0 from bank 3 that has read these header words and holds the bus. -/
def copying (header : List Word) (cells : Memory) : State :=
  heldBy .copy { withSlot 0 { emptySlotRecord with state := .loading, bank := 3 }
    (withBank 3 { board with board := some cells } State.reset) with
    copy := some { slot := 0, header := header, prot := false } }

theorem test_header_checks_witness :
    let bad := copying [0, 1, 0, 0, 0, 0, 0, 0] [(8, 36#16)]
    let long := withSlot 0 { emptySlotRecord with state := .loading, bank := 3, offset := 262132 }
      (copying [1, 1, 0, 0, 0, 0, 0, 0] [(262140, 36#16)])
    (headerSound (([0, 1, 0, 0, 0, 0, 0, 0] : List Word) ++ [trueRead bad.banks[3] 8]) = false ∧
      (after .installCopyRead bad).attention.installFailed = some .badHeader) ∧
    headerSound (([1, 1, 0, 0, 0, 0, 0, 0] : List Word) ++ [trueRead long.banks[3] 262140]) = true ∧
      Config.bankWords < 262132 + imageLength [1, 1, 0, 0, 0, 0, 0, 0, 36] ∧ 262132 + 8 < Config.bankWords ∧
      (after .installCopyRead long).attention.installFailed = some .outOfBank := by decide +kernel

theorem test_header_word_witness :
    let s := copying [1, 2, 3, 4, 5, 6, 7] [(7, 9#16)]
    s.copy = some { slot := 0, header := [1, 2, 3, 4, 5, 6, 7], prot := false } ∧ s.bus.holder = some .copy ∧
      s.slots[0].bank = (3 : Fin 8).val ∧ ([1, 2, 3, 4, 5, 6, 7] : List Word).length < 8 ∧
      s.slots[0].offset + 7 < Config.bankWords ∧
      (after .installCopyRead s).copy.map (·.header) = some [1, 2, 3, 4, 5, 6, 7, 9] := by decide +kernel

theorem test_last_header_word_witness :
    let s := copying [5, 1, 0, 0, 0, 0, 0, 0] [(8, 36#16)]
    headerSound (([5, 1, 0, 0, 0, 0, 0, 0] : List Word) ++ [trueRead s.banks[3] 8]) = true ∧
      s.slots[0].offset + imageLength [5, 1, 0, 0, 0, 0, 0, 0, 36] ≤ Config.bankWords ∧
      (after .installCopyRead s).slots[0] =
        { s.slots[0] with fontNumber := 5, glyphCount := 1, stackStep := 36, prot := false } ∧
      (after .installCopyRead s).copy.map (·.header) = some [5, 1, 0, 0, 0, 0, 0, 0, 36] := by decide +kernel

/-- A copy at the last outline entry of a font of one glyph, number 5, whose older slot is in use; the words at 10 to 12
are the entry's. -/
def lastEntry (high low count : Word) : State :=
  withSlot 4 (slotOf .resident 5 2 1) (withSlot 0
    { emptySlotRecord with state := .loading, bank := 3, fontNumber := 5, glyphCount := 1, widths := [36] }
    (copying [5, 1, 0, 0, 0, 0, 0, 0, 0] [(0, 5#16), (10, high), (11, low), (12, count)]))

/-- The n-th word of the image that a copy from bank 3 reads. -/
def imageWord (s : State) (n : Nat) : Word := trueRead s.banks[(3 : Fin 8)] (s.slots[0].offset + n)

theorem test_last_entry_in_tables (high low count : Word) :
    CopyInTables (lastEntry high low count) { slot := 0, header := [5, 1, 0, 0, 0, 0, 0, 0, 0], prot := false } 3
      (imageWord (lastEntry high low count)) :=
  ⟨rfl, rfl, rfl, rfl, by show 0 + imageLength _ ≤ _; decide, by show 0 < headerWord _ 1; decide, fun _ => rfl⟩

theorem test_completed_copy_witness :
    let s := lastEntry 0 64 3
    let x : Slot := { s.slots[0] with outlines := [{ offset := 64, count := 3 }] }
    EntryRead [5, 1, 0, 0, 0, 0, 0, 0, 0] s.slots[0] (imageWord s) (.ok x) ∧ x.outlines.length = 1 ∧
      (∀ i j : Fin 8, i ≠ 0 → j ≠ 0 → s.slots[i].state = .resident → s.slots[j].state = .resident →
        s.slots[i].fontNumber = s.slots[j].fontNumber → i = j) ∧
      (after .installCopyRead s).slots[0].state = .resident ∧
      (after .installCopyRead s).slots[4] = { s.slots[4] with state := .retiring } :=
  ⟨.outline 10 ⟨fun _ => rfl, fun _ => rfl, fun _ => rfl, fun _ => rfl, fun _ => rfl⟩ (by decide +kernel) rfl
    (by decide +kernel) (by decide +kernel), rfl, by decide +kernel, by decide +kernel, by decide +kernel⟩

theorem test_outline_outside_bank_witness :
    let s := lastEntry 4 0 1
    EntryRead [5, 1, 0, 0, 0, 0, 0, 0, 0] s.slots[0] (imageWord s) (.error .outOfBank) ∧
      (after .installCopyRead s).slots[0] = emptySlotRecord ∧
      (after .installCopyRead s).attention.installFailed = some .outOfBank :=
  ⟨.outlineOutside 10 ⟨fun _ => rfl, fun _ => rfl, fun _ => rfl, fun _ => rfl, fun _ => rfl⟩ (by decide +kernel) rfl
    (by decide +kernel) (by decide +kernel), by decide +kernel, by decide +kernel⟩

theorem test_table_entry_witness :
    let header : List Word := [5, 1, 0, 0, 0, 0, 0, 0, 0]
    let s (w : Word) := copying header [(9, w)]
    EntryRead header (s 216).slots[0] (imageWord (s 216)) (.ok { (s 216).slots[0] with widths := [216] }) ∧
      EntryRead header (s 217).slots[0] (imageWord (s 217)) (.error .badHeader) ∧
      (after .installCopyRead (s 216)).slots[0].widths = [216] ∧ (after .installCopyRead (s 216)).copy = (s 216).copy ∧
      (after .installCopyRead (s 217)).attention.installFailed = some .badHeader :=
  ⟨.width 9 (by decide) rfl (by decide +kernel), .widthFails 9 (by decide) rfl (by decide +kernel), by decide +kernel,
    by decide +kernel, by decide +kernel⟩

theorem test_retire_font_witness :
    let s := withSlot 3 (slotOf .resident 255 0 3) (withSlot 2 (slotOf .resident 1 4 3) State.reset)
    (∀ i : Fin 8, ¬ (s.slots[i].state = .resident ∧ s.slots[i].fontNumber = (2#16).toNat)) ∧
      (∀ j : Fin 8, s.slots[j].state = .resident → s.slots[j].fontNumber = (1#16).toNat → j = 2) ∧
      (∀ j : Fin 8, s.slots[j].state = .resident → s.slots[j].fontNumber = (255#16).toNat → j = 3) ∧
      (after (.retireFont 1) s).slots[2].state = .retiring ∧ (after (.retireFont 255) s).slots[3] = emptySlotRecord := by
  decide +kernel

/-! ## Witnesses: font store -/

theorem test_store_commands_witness :
    (0x3FFFF#32).toNat + (1#16).toNat ≤ Config.bankWords ∧ (0x3FFC0#32).toNat + (64#16).toNat ≤ Config.bankWords ∧
      Config.bankWords < (0x40000#32).toNat + (1#16).toNat ∧ Config.bankWords < (0x3FFC1#32).toNat + (64#16).toNat ∧
      (after (.readStore 7 0x3FFFF 1) State.reset).port.phase = .acting (.read 7 0x3FFFF 1) ∧
      (after (.writeStore 0 0x3FFFF 1 [5]) State.reset).port.phase = .acting (.write 0 0x3FFFF [5]) ∧
      (after (.readStore 0 0x40000 1) State.reset).port.phase = .responding [0x0404#16] ∧
      (after (.writeStore 8 0 1 []) State.reset).port.phase = .responding [0x0404#16] ∧
      (after (.readStore 0 0 65) State.reset).port.phase = .responding [0x0404#16] ∧
      (after (.writeStore 0 0 0 []) State.reset).port.phase = .responding [0x0404#16] := by decide +kernel

theorem test_read_store_witness :
    let s := heldBy .store (inPhase (.acting (.read 3 4 2)) (withBank 3 { board with board := some [(4, 9#16)] } State.reset))
    s.port.phase = .acting (.read 3 4 2) ∧ s.bus.holder = some .store ∧
      (after .readStoreComplete s).port.phase = .responding [0x0100#16, 2#16, 9#16, 0xFFFF#16] := by decide +kernel

theorem test_write_store_witness :
    let s (b : BankPosition) := heldBy .store (inPhase (.acting (.write 3 0x3FFFE [8, 9])) (withBank 3 b State.reset))
    let bare := s { board with board := none }
    let guardedOne := withSlot 7 (slotOf .resident 1 0 3) (s board)
    (bare.banks[3].kind ≠ .board ∧ (after .writeStoreComplete bare).port.phase = .responding [0x0406#16]) ∧
      ((s sealed).banks[3].kind = .cartridge ∧
        (after .writeStoreComplete (s sealed)).port.phase = .responding [0x0407#16]) ∧
      (guarded guardedOne.slots 3 = true ∧
        (after .writeStoreComplete guardedOne).port.phase = .responding [0x0408#16]) ∧
      (s board).banks[3].kind = .board ∧ (s board).banks[3].board = some [] ∧ guarded (s board).slots 3 = false ∧
      Memory.wf [] ∧ 0x3FFFE + 2 ≤ Config.bankWords ∧
      (after .writeStoreComplete (s board)).banks[3].board = some [(0x3FFFE, 8#16), (0x3FFFF, 9#16)] := by
  decide +kernel

theorem test_hold_witness :
    let waiting := inPhase (.acting (.read 3 4 2)) State.reset
    let held := { heldBy .hold waiting with bus := { holder := some .hold, holdRequest := true, last := none } }
    let both := { withSlot 0 { emptySlotRecord with state := .loading, bank := 3 } (filming (.loadOutline 0 none)) with
      copy := some { slot := 0, header := [], prot := false }
      imaging := { (filming (.loadOutline 0 none)).imaging with
        fetch := some { slot := 2, bank := 3, offset := 64, count := 3 } }
      bus := { holder := some .hold, holdRequest := true, last := some .fetcher } }
    State.reset.bus.holder = none ∧ (after .holdRequest State.reset).bus.holder = some .hold ∧
      (heldBy .store waiting).wantsBus .store = true ∧ (after .holdRequest (heldBy .store waiting)).bus.holder = some .store ∧
      held.wantsBus .store = true ∧ (after .holdRequestDrop held).bus.holder = some .store ∧
      both.wantsBus .store = false ∧ both.wantsBus .copy = true ∧ both.wantsBus .fetcher = true ∧
      (after .holdRequestDrop both).bus.holder = some .copy ∧
      (after .holdRequestDrop { both with copy := none }).bus.holder = some .fetcher ∧
      (after .holdRequestDrop { both with imaging := { both.imaging with fetch := none } }).bus.holder = some .copy ∧
      (after .holdRequestDrop { both with copy := none, imaging := { both.imaging with fetch := none } }).bus.holder =
        none := by decide +kernel

theorem test_hold_access_witness :
    let s (b : BankPosition) := heldBy .hold (withBank 3 b State.reset)
    (after (.holdRead 3 64) (s sealed)).stationRead = some 0xFFFF#16 ∧ State.reset.bus.holder ≠ some .hold ∧
      (guarded (withSlot 0 (slotOf .resident 1 0 3) (s board)).slots 3 = true ∧
        (after (.holdWrite 3 5 9) (withSlot 0 (slotOf .resident 1 0 3) (s board))).attention.guardViolation = some 3) ∧
      ((s sealed).banks[3].kind = .cartridge ∧ (after (.holdWrite 3 5 9) (s sealed)).attention.guardViolation = some 3) ∧
      (guarded (s board).slots 2 = false ∧ (s board).banks[2].kind = .absent) ∧
      (s board).banks[3].kind = .board ∧ (s board).banks[3].board = some [] ∧
      (after (.holdWrite 3 0x3FFFF 9) (s board)).banks[3].board = some [(0x3FFFF, 9#16)] := by decide +kernel

theorem test_presence_change_witness :
    let s := withSlot 0 (slotOf .resident 1 0 3) (withSlot 1 (slotOf .resident 2 1 3) (withSlot 2 (slotOf .retiring 3 1 3)
      (withSlot 4 (slotOf .resident 4 1 0) (copying [] []))))
    let l := copying [] []
    ((s.banks[3].socket .board).isSome = (some [(0, 1#16)] : Option (List (Nat × Word))).isSome ∧
      after (.presenceChange 3 .board (some [(0, 1)])) s = s) ∧
    ((s.banks[3].socket .board).isSome ≠ (none : Option (List (Nat × Word))).isSome ∧
      (after (.presenceChange 3 .board none) s).slots[0] = emptySlotRecord ∧
      (after (.presenceChange 3 .board none) s).slots[1].state = .retiring ∧
      (after (.presenceChange 3 .board none) s).slots[2].imageLost = true ∧
      (after (.presenceChange 3 .board none) s).slots[4] = s.slots[4]) ∧
    (l.slots[0].state = .loading ∧ (after (.presenceChange 3 .cartridge (some [])) l).slots[0] = emptySlotRecord ∧
      (after (.presenceChange 3 .cartridge (some [])) l).attention.installFailed = some .bankChanged) := by decide +kernel

theorem test_presence_change_cuts_store :
    let s (op : StoreOp) := heldBy .store (inPhase (.acting op) (withBank 3 board State.reset))
    let read := s (.read 3 4 2)
    let write := withSlot 7 (slotOf .retiring 1 1 3) (s (.write 3 0x3FFFE [8, 9]))
    read.bus.holder = some .store ∧
      (after (.presenceChange 3 .board none) read).port.phase = .responding [0x0405#16] ∧
      (after (.presenceChange 3 .cartridge (some [])) write).port.phase = .responding [0x0405#16] ∧
      guarded write.slots 3 = true ∧
      (after (.presenceChange 3 .cartridge (some [])) write).banks[3].board = some [] := by decide +kernel

theorem test_presence_change_cuts_fetch :
    let s := heldBy .fetcher (onUnit (fun m => { m with
      fetch := some { slot := 2, bank := 3, offset := 64, count := 3 }
      mirror := [{ entry := 9, slot := 2, glyph := 1, blank := false }] }) (filming (.loadOutline 9 none)))
    let t := after (.presenceChange 3 .board none) s
    s.imaging.fetch = some { slot := 2, bank := 3, offset := 64, count := 3 } ∧ s.imaging.unit = .sending ∧
      t.imaging.fetch = none ∧ t.imaging.out = some { record := .loadOutline 9 (some []), void := false } ∧
      t.imaging.mirror = [{ entry := 9, slot := 2, glyph := 1, blank := true }] ∧
      (t.table.records[7].map fun r => hasFlag r.flags .imageLost) = some true ∧
      (after (.presenceChange 4 .board (some [])) s).imaging = s.imaging := by decide +kernel

theorem test_fetch_witness :
    let s := heldBy .fetcher (withBank 3 sealed (onUnit (fun m => { m with
      fetch := some { slot := 2, bank := 3, offset := 64, count := 3 } }) (filming (.loadOutline 9 none))))
    s.imaging.fetch = some { slot := 2, bank := 3, offset := 64, count := 3 } ∧ s.bus.holder = some .fetcher ∧
      s.imaging.out = some { record := .loadOutline 9 none, void := false } ∧ s.imaging.unit = .sending ∧
      (after .outlineFetchDone s).imaging.out =
        some { record := .loadOutline 9 (some [7#16, 0xFFFF#16, 0xFFFF#16]), void := false } := by decide +kernel

/-! ## Witnesses: class list and library port -/

theorem test_class_list_witness :
    let good : ClassWords := { matchWord := 0x3100, careWord := 0xFF00, rankWord := 0x030F, kindWord := 0x4401 }
    let bad : ClassWords := { good with rankWord := 0x0400 }
    let e : ClassEntry := { matchValue := 0x3100, careMask := 0xFF00, priority := 3
                            cls := { script := 15, dir := .mark, join := .transparent, brk := .space } }
    State.reset.port.phase = .ready ∧ [good].map readEntry = [e].map some ∧ (∃ c ∈ [good, bad], readEntry c = none) ∧
      48 < (49#16).toNat ∧ (after (.loadClassList 1 [good]) State.reset).classes = [e] ∧
      (after (.loadClassList 2 [good, bad]) State.reset).port.phase = .responding [0x040C#16] := by decide +kernel

theorem test_winning_entry_witness :
    let e (p : Nat) (b : BreakClass) : ClassEntry := { matchValue := 0x61, careMask := 0xFFFF, priority := p
                                                       cls := { script := p, dir := .right, join := .dual, brk := b } }
    (winningEntry [e 1 .ordinary, e 0 .ordinary, e 0 .space] 0x61 = some (e 0 .ordinary)) ∧
      classify [e 0 .space] 0x61 = classify [] 0x20 ∧ (∀ f ∈ [e 1 .ordinary], f.covers 0x62 = false) ∧
      (e 0 .ordinary).covers 0x61 = true := by decide +kernel

theorem test_set_link_witness :
    let s := onLink 3 (fun l => { l with rx := { l.rx with discardPending := true, stray := 9 } }) State.reset
    (3#16).toNat = (3 : Fin 4).val ∧ rateOf 192 = some .b19200 ∧ rateOf 13 = none ∧ 3 < (4#16).toNat ∧
      (after (.setLink 3 192 1 1) s).links[3].rx.recv = .discard ∧ (after (.setLink 3 192 1 1) s).links[3].rx.stray = 0 ∧
      (after (.setLink 4 192 1 1) s).port.phase = .responding [0x0404#16] ∧
      (after (.setLink 3 192 2 1) s).port.phase = .responding [0x0404#16] ∧
      (after (.setLink 3 192 1 2) s).port.phase = .responding [0x0404#16] := by decide +kernel

/-- Galley 31 of link 1 in a state, its link setting it. -/
def setting (st : GalleyState) : State :=
  withGalley 31 { galley with state := st, lines := [lineOf 1 []] }
    (onLink 1 (fun l => { l with setting := { l.setting with parser := .inGalley, galley := some 31 } }) State.reset)

theorem test_kill_galley_witness :
    (setting .receiving).port.phase = .ready ∧ (31#16).toNat = (31 : Fin 32).val ∧
      (setting .receiving).links[1].setting.markerDue = false ∧
      (setting .receiving).links[1].setting.galley = some 31 ∧ (setting .receiving).links[1].setting.parser = .inGalley ∧
      (after (.killGalley 31) (setting .receiving)).links[1].setting.parser = .skip ∧
      (after (.killGalley 31) (setting .receiving)).table.freeLines = 512 ∧
      ((after (.killGalley 31) (setting .exposing)).table.records[31].map fun r => (r.state, r.killPending, r.outcome)) =
        some (.exposing, true, .killed) ∧
      (State.reset.table.records[31] = none ∧ (withGalley 31 { galley with state := .set } State.reset).links[1].setting.galley ≠ some 31) := by
  decide +kernel

/-- Galley 31 of link 1 waiting for a line record to close at a break, a marker due or not. -/
def waitingLine (p : ParserState) (brk : Break) (due : Bool) : State :=
  onLink 1 (fun l => { l with setting := { l.setting with
      parser := p, markerDue := due
      held := some { line := { advance := 176, quad := .left, flags := noLineFlags, glyphs := [] }
                     rest := .closed brk } } })
    (setting .receiving)

theorem test_kill_parser_witness :
    let t (s : State) := (after (.killGalley 31) s).links[1].setting
    (t (waitingLine .waitLine .space true)).parser = .skip ∧ (t (waitingLine .waitLimit .space false)).parser = .skip ∧
      (t (waitingLine .waitLimit .galleyStart false)).parser = .header ∧
      (t (waitingLine .waitLine .galleyStart true)).parser = .inGalley ∧
      (t (waitingLine .inMeasure .space false)).ret = .skip ∧
      (t (waitingLine .waitMeasure .space false)).resume = .skip := by decide +kernel

theorem test_resume_and_class_witness :
    ((setting .failed).table.records[31].map (·.state)) = some .failed ∧ (31 : Fin 32) ∉ (setting .failed).table.eligible ∧
      (after (.resumeGalley 31) (setting .failed)).table.eligible = [31] ∧
      (after (.setClass 31 0) (after .responseRead (after (.resumeGalley 31) (setting .failed)))).table.eligible = [] ∧
      ((after (.setClass 31 7) (setting .failed)).table.records[31].map (·.cls)) = some 3 := by decide +kernel

theorem test_galley_refusals_witness :
    31 < (32#16).toNat ∧ State.reset.table.records[0] = none ∧
      ((setting .done).table.records[31].map (·.state)) = some .done ∧
      (after (.killGalley 31) (setting .done)).port.phase = .responding [0x0409#16] ∧
      (after (.setClass 32 1) State.reset).port.phase = .responding [0x0409#16] ∧
      (after (.resumeGalley 31) (setting .set)).port.phase = .responding [0x040A#16] := by decide +kernel

theorem test_clear_unit_witness :
    let s (r : Bool) := onUnit (fun m => { m with unit := .fault, ready := r }) State.reset
    (s true).imaging.unit = .fault ∧ (after .clearUnit (s true)).imaging.unit = .sending ∧
      (after .clearUnit (s false)).imaging.unit = .offline ∧ State.reset.imaging.unit ≠ .fault := by decide +kernel

theorem test_read_status_witness :
    (State.reset.statusSection 5 = some [0#16]) ∧ 5 < (6#16).toNat ∧
      (after (.readStatus 5) State.reset).port.phase = .responding [0x0100#16, 1#16, 0#16] ∧
      ((State.reset.statusSection 0).map List.length) = some 96 ∧ ((State.reset.statusSection 1).map List.length) = some 43 ∧
      ((State.reset.statusSection 3).map List.length) = some 52 := by decide +kernel

theorem test_acknowledge_witness :
    let s : State := { State.reset with attention := { noAttention with installDone := some 3, storeStalled := true } }
    (after (.acknowledgeAttention 0xFF01) s).attention = { noAttention with storeStalled := true } ∧
      (0xFFFF#16).toNat % 256 = 255 ∧ (after (.acknowledgeAttention 0xFFFF) s).attention.line = false := by decide +kernel

theorem test_port_words_witness :
    namesCommand 0 = false ∧ namesCommand 14 = false ∧ (1 ≤ (12#16).toNat ∧ (12#16).toNat ≤ 12 ∧ (12#16).toNat ≠ 10) ∧
      blockWhole ([1, 2] ++ [0]) = false ∧
      (inPhase (.taking [1, 2]) State.reset).port.phase = .taking [1, 2] ∧
      (after .responseRead (inPhase (.responding [0x0100]) State.reset)).port.phase = .ready ∧
      (∀ r, State.reset.port.phase ≠ .responding r) :=
  ⟨by decide, by decide, by decide, by decide, rfl, rfl, fun _ h => nomatch h⟩

theorem test_busy_port_witness :
    (∃ op, (inPhase (.acting (.read 0 0 1)) State.reset).port.phase = .acting op) ∧
      (∃ r, (inPhase (.responding [0x0100]) State.reset).port.phase = .responding r) := ⟨⟨_, rfl⟩, ⟨_, rfl⟩⟩

theorem test_waiting_words_are_taken :
    let s := after (.commandBlockWord 2) (after .clearUnit (inPhase (.responding [0x0100]) State.reset))
    s.port.offered = [10, 2] ∧ s.port.strobe = true ∧
      (after .responseRead s).port = { phase := .responding [0x040B#16], offered := [2] } ∧
      (after .responseRead (after .responseRead s)).port = { phase := .taking [2], offered := [] } := by decide +kernel

theorem test_complete_blocks_witness :
    (LibCommand.writeStore 1 5 2 [8, 9]).complete = true ∧ (LibCommand.writeStore 1 5 65 []).complete = true ∧
      (LibCommand.loadClassList 0 []).complete = true ∧ (LibCommand.loadClassList 49 []).complete = true ∧
      (LibCommand.badCommand 0).complete = true ∧
      readBlock (LibCommand.writeStore 1 0x20005 2 [8, 9]).block = .writeStore 1 0x20005 2 [8, 9] := by decide +kernel

/-! ## Witnesses: composition links -/

/-- Link 2 with a receiver. -/
def receiving (f : Receiver → Receiver) : State :=
  onLink 2 (fun l => { l with rx := f { l.rx with recv := .receiving } }) State.reset

theorem test_byte_witness :
    State.reset.links[2].rx.recv = .disabled ∧ (receiving id).links[2].rx.recv ≠ .disabled ∧
      (receiving id).links[2].rx.framing = none ∧ (receiving id).links[2].rx.breakLatch = false ∧
      (receiving id).links[2].rx.pair = .highNext ∧
      (after (.byteReceived 2 5 true false) (receiving fun rx => { rx with pair := .lowNext 4 true })).links[2].rx.ring =
        ringOf [none] ∧
      (after (.byteReceived 2 5 true true) (receiving id)).links[2].rx.framing = some 5 := by decide +kernel

theorem test_ring_witness :
    let rx (n : Nat) (st : ReceiveState) : Receiver :=
      { resetLink.rx with recv := st, drop := 7, ring := ringOf (List.replicate n (some 0x61#16)), readyOut := true }
    ((rx 223 .receiving).ring.length = 223 ∧ ((rx 223 .receiving).offer none).readyOut = false) ∧
      (256 ≤ (rx 256 .receiving).ring.length ∧ ((rx 256 .receiving).offer none).recv = .discard) ∧
      (((rx 255 .discard).offer (some 0xFF02)).recv = .receiving ∧ (rx 255 .discard).ring.length < 256) ∧
      ((rx 256 .discard).offer (some 0xFF02)).drop = 8 ∧ ((rx 3 .discard).offer none).drop = 8 ∧
      (rx 3 .disabled).recv = .disabled ∧ ({ rx 97 .receiving with readyOut := false } : Receiver).take.readyOut = true ∧
      (rx 96 .receiving).ring.length ≠ 97 := by decide +kernel

theorem test_return_to_mark_witness :
    let s := receiving fun rx => { rx with framing := some 5, pair := .lowNext 4 true }
    (receiving id).links[2].rx.framing = none ∧ s.links[2].rx.framing = some 5 ∧ s.links[2].rx.recv ≠ .disabled ∧
      s.links[2].rx.pair = .lowNext 4 true ∧ s.links[2].rx.recv = .receiving ∧ s.links[2].rx.ring.length < 256 ∧
      (after (.lineReturnToMark 2) s).links[2].rx.ring = ringOf [none] ∧
      (after (.lineReturnToMark 2) (receiving fun rx => { rx with framing := some 5 })).links[2].rx.pair =
        .lowNext 5 false ∧
      (State.reset.links[2].rx.recv = .disabled ∧ after (.lineReturnToMark 2) State.reset = State.reset) := by
  decide +kernel

theorem test_break_witness :
    let s (st : GalleyState) := onLink 1 (fun l => { l with rx := { l.rx with recv := .discard } }) (setting st)
    State.reset.links[1].rx.recv = .disabled ∧ (s .pressed).links[1].rx.recv ≠ .disabled ∧
      (s .pressed).links[1].rx.breakLatch = false ∧ (s .pressed).links[1].setting.galley = some 31 ∧
      ((s .pressed).table.records[31].map (·.ended)) = some false ∧
      ((after (.breakSignal 1) (s .pressed)).table.records[31].map fun r => (r.state, r.outcome)) = some (.done, .abandoned) ∧
      ((after (.breakSignal 1) (s .exposing)).table.records[31].map fun r => (r.state, r.outcome)) =
        some (.exposing, .abandoned) ∧
      (receiving id).links[2].setting.galley = none ∧ (after (.breakSignal 2) (receiving id)).links[2].rx.recv = .receiving := by
  decide +kernel

theorem test_front_end_ready_witness :
    let m : MeasureResult := { width := 320, glyphs := 1, missing := 0, flags := 0 }
    let result := onLink 1 (fun l => { l with measure := .waiting m }) State.reset
    let report := withGalley 31 { galley with mark := true } State.reset
    let held := onLink 1 (fun l => { l with tx := { l.tx with state := .held, buffer := [7, 8] } }) State.reset
    (result.links[1].tx.state = .idle ∧ result.links[1].measure = .waiting m ∧
      (after (.frontEndReadyOn 1) result).links[1].tx.reply = some .result) ∧
    (report.links[1].tx.state = .idle ∧ report.links[1].measure = .empty ∧
      (∀ h : Fin 32, h < 31 → report.table.records[h] = none) ∧
      (after (.frontEndReadyOn 1) report).links[1].tx.reply = some (.report 31 false)) ∧
    held.links[1].tx.state = .held ∧ (after (.frontEndReadyOn 1) held).links[1].tx.shift = some 7 := by decide +kernel

theorem test_marked_report_is_settled : Settled (withGalley 31 { galley with mark := true } State.reset) :=
  ⟨(fun h => nomatch h), (fun h => nomatch h), (by
    have h : ∀ i : Fin 4, (withGalley 31 { galley with mark := true } State.reset).links[i].tx.feReady = false := by
      decide +kernel
    intro i _ hr
    rw [h i] at hr
    cases hr), fun _ => rfl⟩

/-- Link 1 sending a reply with these bytes left. -/
def replying (tag : ReplyTag) (rest : List Byte) (ready : Bool) (s : State) : State :=
  onLink 1 (fun l => { l with tx := { state := .sending, shift := some 1, buffer := rest, reply := some tag, feReady := ready } }) s

theorem test_byte_sent_witness :
    let m : MeasureResult := { width := 320, glyphs := 1, missing := 0, flags := 0 }
    let last := onLink 1 (fun l => { l with measure := .sending m }) (replying .result [] true State.reset)
    (replying .result [5] true State.reset).links[1].tx.shift = some 1 ∧
      (after (.transmitByteSent 1) (replying .result [5] true State.reset)).links[1].tx.shift = some 5 ∧
      (after (.transmitByteSent 1) (replying .result [5] false State.reset)).links[1].tx.state = .held ∧
      last.links[1].measure = .sending m ∧ (after (.transmitByteSent 1) last).links[1].measure = .empty := by decide +kernel

theorem test_last_byte_witness :
    let m : MeasureResult := { width := 320, glyphs := 1, missing := 0, flags := 0 }
    let more := replying (.report 30 false) [] true (withGalley 31 { galley with mark := true } State.reset)
    let cut := onLink 1 (fun l => { l with tx := { l.tx with reply := none } }) (replying .result [] false State.reset)
    let left := onLink 1 (fun l => { l with measure := .gathering newRequest }) (replying .result [] false State.reset)
    let next := onLink 1 (fun l => { l with measure := .waiting m }) (replying .result [] true State.reset)
    (more.links[1].tx.shift = some 1 ∧ more.links[1].tx.buffer = [] ∧ more.links[1].tx.feReady = true ∧
      more.table.records[31] = some { galley with mark := true } ∧
      (∀ h : Fin 32, h < 31 → more.table.records[h] = none) ∧
      (after (.transmitByteSent 1) more).links[1].tx.reply = some (.report 31 false)) ∧
    (cut.links[1].tx.reply = none ∧ (after (.transmitByteSent 1) cut).links[1].tx.state = .idle) ∧
    ((after (.transmitByteSent 1) left).links[1].tx.state = .idle ∧
      (after (.transmitByteSent 1) left).links[1].measure = .gathering newRequest) ∧
    next.links[1].measure = .waiting m ∧ (after (.transmitByteSent 1) next).links[1].measure = .sending m := by
  decide +kernel

theorem test_last_byte_is_settled :
    Settled (replying (.report 30 false) [] true (withGalley 31 { galley with mark := true } State.reset)) :=
  ⟨(fun h => nomatch h), (fun h => nomatch h), (by
    have h : ∀ i : Fin 4,
        (replying (.report 30 false) [] true (withGalley 31 { galley with mark := true } State.reset)).links[i].tx.state =
            .idle →
          (replying (.report 30 false) [] true
            (withGalley 31 { galley with mark := true } State.reset)).links[i].tx.feReady = false := by decide +kernel
    intro i hi hr
    rw [h i hi] at hr
    cases hr), fun _ => rfl⟩

theorem test_final_report_witness :
    let s := replying (.report 31 true) [] true (withSlot 2 (slotOf .retiring 1 1 3)
      (withGalley 31 { galley with state := .done } State.reset))
    s.links[1].tx.shift = some 1 ∧ s.links[1].tx.buffer = [] ∧ s.links[1].tx.reply = some (.report 31 true) ∧
      (s.table.records[31].map (·.useSet)) = some [2] ∧ ([2] : List (Fin 8)).Nodup ∧
      (after (.transmitByteSent 1) s).slots[2] = emptySlotRecord ∧
      (after (.transmitByteSent 1) s).table.records[31] = none := by decide +kernel

/-! ## Witnesses: the Setter -/

theorem test_rotation_witness :
    let s := onLink 0 (fun l => { l with rx := { l.rx with ring := ringOf [some 0x61] } }) State.reset
    let s1 := onLink 1 (fun l => { l with rx := { l.rx with ring := ringOf [some 0x61] } }) State.reset
    (∀ i : Fin 4, (State.reset.bench i).turn = none) ∧ ((s.bench s.rotation).turn).isSome = true ∧
      ((s1.bench s1.rotation).turn = none ∧ ((s1.bench (s1.rotation + 1)).turn).isSome = true) ∧
      (∀ k : Fin 4, (after .setterTurn { s with rotation := k }).links[0].rx.ring = [] ∧
        (after .setterTurn { s with rotation := k }).rotation = 1) ∧
      (after .setterTurn s).rotation = 1 ∧ (after .setterTurn s).links[0].rx.stray = 1 ∧
      s.links[0].setting.parser = .idle ∧ s.links[0].setting.pending = none ∧
      (after .setterTurn s1).rotation = 2 := by decide +kernel

theorem test_header_witness :
    let s := onLink 0 (fun l => { l with
      rx := { l.rx with ring := ringOf [some 0x2D] }
      setting := { l.setting with parser := .header, header := headerVals.take 16 } }) State.reset
    s.rotation = 0 ∧ s.links[0].setting.parser = .header ∧ s.links[0].setting.header.length = 16 ∧
      s.table.records[0] = none ∧ (∀ h : Fin 32, h < 0 → s.table.records[h] ≠ none) ∧
      ((after .setterTurn s).table.records[0].map fun r => (r.number, r.cls, r.deadline, r.state)) =
        some (500, 2, 14, .receiving) ∧
      (after .setterTurn s).links[0].setting.parser = .inGalley := by decide +kernel

/-- The turn of link 1, in a parser state, with a word at the head of its ring. -/
def turnWith (p : ParserState) (c : Option Word) (f : Setting → Setting) (s : State) : State :=
  { onLink 1 (fun l => { l with rx := { l.rx with ring := ringOf [c] }, setting := f { l.setting with parser := p } }) s with
    rotation := 1 }

theorem test_turn_link (p : ParserState) (c : Option Word) (f : Setting → Setting) (s : State) :
    (turnWith p c f s).links[(1 : Fin 4)] =
      let l := s.links[(1 : Fin 4)]
      { l with rx := { l.rx with ring := ringOf [c] }, setting := f { l.setting with parser := p } } := modifyAt_same _ _ _

theorem test_word_turn (p : ParserState) (c : Option Word) (f : Setting → Setting) (s : State)
    (hp : (f { s.links[(1 : Fin 4)].setting with parser := p }).parser = p)
    (hn : (f { s.links[(1 : Fin 4)].setting with parser := p }).pending = none) : WordTurn (turnWith p c f s) 1 p c 0 [] :=
  ⟨rfl, by rw [test_turn_link]; exact hp, by rw [test_turn_link]; exact hn, by rw [test_turn_link]; rfl⟩

theorem test_command_turn (p : ParserState) (code : Code) (ps : List (Option Word)) (c : Option Word) (s : State)
    (hp : p = .idle ∨ p = .inGalley ∨ p = .skip) :
    CommandTurn (turnWith p c (fun x => { x with pending := some { code := code, params := ps, passOver := false } }) s) 1
      code ps c 0 [] :=
  ⟨rfl, by rw [test_turn_link]; exact hp, by rw [test_turn_link], by rw [test_turn_link]; rfl⟩

theorem test_reset_passes_every_link : ∀ i : Fin 4, PassedOver State.reset i := by
  have h : ∀ i : Fin 4, State.reset.links[i].setting.parser = .idle ∧ State.reset.links[i].rx.ring = [] := by decide +kernel
  intro i
  unfold PassedOver
  rw [(h i).1]
  exact (h i).2

theorem test_passed_over_witness :
    let wait (p : ParserState) := turnWith p (some 0x61) (fun x => { x with galley := some 31 }) (setting .receiving)
    let empty (s : State) : State := { s with table := { s.table with freeLines := 0 } }
    let full := withGalley 31 { galley with lines := List.replicate 96 (lineOf 1 []) }
    let busy := onLink 1 (fun l => { l with measure := .gathering newRequest }) (wait .waitMeasure)
    ((wait .waitRecord).bench 1).turn.isSome = true ∧
      (((wait .waitLine).bench 1).turn.isSome = true ∧ ((empty (wait .waitLine)).bench 1).turn = none) ∧
      (((wait .waitLimit).bench 1).turn.isSome = true ∧ ((full (wait .waitLimit)).bench 1).turn = none) ∧
      (((wait .waitMeasure).bench 1).turn.isSome = true ∧ (busy.bench 1).turn = none) ∧
      ((wait .skip).bench 1).turn.isSome = true := by decide +kernel

theorem test_line_codes_witness :
    let s (w : Word) (line : LineAssembly) := turnWith .inGalley (some w) (fun x => { x with line := line })
      (setting .receiving)
    let letters : LineAssembly := { emptyLine with elements := [.space] }
    let full (w : Word) := withGalley 31 { galley with lines := List.replicate 96 (lineOf 1 []) } (s w emptyLine)
    let none_ (w : Word) : State := { s w emptyLine with table := { (s w emptyLine).table with freeLines := 0 } }
    let lines (t : State) := t.table.records[31].map fun r => (r.lines.length, r.linesSet, r.ended, r.state)
    (s 0xFF21 emptyLine).links[1].setting.galley = some 31 ∧ (s 0xFF21 emptyLine).links[1].setting.buffer = [] ∧
      lines (after .setterTurn (s 0xFF21 emptyLine)) = some (2, 1, false, .receiving) ∧
      (after .setterTurn (s 0xFF24 emptyLine)).table.freeLines = 510 ∧
      (after .setterTurn (full 0xFF22)).links[1].setting.parser = .waitLimit ∧
      (after .setterTurn (none_ 0xFF23)).links[1].setting.parser = .waitLine ∧
      lines (after .setterTurn (s 0xFF02 letters)) = some (2, 1, true, .set) ∧
      lines (after .setterTurn (s 0xFF02 emptyLine)) = some (1, 0, true, .set) ∧
      (after .setterTurn (s 0xFF02 emptyLine)).links[1].setting.parser = .idle := by decide +kernel

theorem test_held_line_witness :
    let s (p : ParserState) : State := { waitingLine p .endParagraph false with rotation := 1 }
    (s .waitLine).links[1].setting.held.map (·.rest) = some (.closed .endParagraph) ∧
      (s .waitLine).links[1].setting.markerDue = false ∧ 0 < (s .waitLine).table.freeLines ∧
      (after .setterTurn (s .waitLine)).links[1].setting.parser = .inGalley ∧
      (after .setterTurn (s .waitLimit)).table.records[31].map (·.lines.length) = some 2 := by decide +kernel

theorem test_measure_witness :
    let s (p : ParserState) (m : MeasureSlot) (c : Option Word) :=
      onLink 1 (fun l => { l with measure := m }) (turnWith p c id State.reset)
    let r (n : Nat) : MeasureRequest := { newRequest with taken := 4, chars := List.replicate n (some 0x61) }
    let m (t : State) := t.links[1].measure
    let p (t : State) := t.links[1].setting.parser
    m (after .setterTurn (s .skip .empty (some 0xFF40))) = .gathering newRequest ∧
      p (after .setterTurn (s .idle .empty (some 0xFF40))) = .inMeasure ∧
      p (after .setterTurn (s .inGalley (.gathering newRequest) (some 0xFF40))) = .waitMeasure ∧
      m (after .setterTurn (s .inMeasure (.gathering (r 63)) (some 0x61))) = .gathering (r 64) ∧
      m (after .setterTurn (s .inMeasure (.gathering (r 64)) none)) = .gathering { r 64 with flags := 0x0001 } ∧
      m (after .setterTurn (s .inMeasure (.gathering (r 0)) (some 0xFF41))) =
        .waiting { width := 0, glyphs := 0, missing := 0, flags := 0x0020 } ∧
      m (after .setterTurn (s .inMeasure (.gathering (r 1)) (some 0xFF41))) =
        .waiting { width := 640, glyphs := 1, missing := 0, flags := 0x0020 } := by decide +kernel

theorem test_header_fields_witness :
    let s (n : Nat) (c : Option Word) := turnWith .header c (fun x => { x with header := headerVals.take n }) State.reset
    let last (n : Nat) (c : Option Word) := (after .setterTurn (s n c)).links[1].setting.header.getD n 99
    let record (t : State) := t.table.records[0].map fun r => (r.header.font, r.header.hyphen, r.flags)
    let resident := withSlot 2 (slotOf .resident 1 0 3)
    let taken : State :=
      { s 16 (some 0x2D) with table := { emptyTable with records := Vector.replicate 32 (some galley) } }
    (last 0 (some 0) = 1 ∧ last 1 (some 4) = 3 ∧ last 4 (some 4) = 0 ∧ last 5 (some 1441) = 1440 ∧ last 15 none = 0) ∧
      (after .setterTurn (s 5 (some 23))).links[1].setting.heldFlags = 0x0008 ∧
      (after .setterTurn (s 5 none)).links[1].setting.heldFlags = 0x000C ∧
      record (after .setterTurn (s 16 none)) = some (1, 0x2D, 0x002C) ∧
      record (after .setterTurn (resident (s 16 (some 0x61)))) = some (1, 0x61, 0x0000) ∧
      (after .setterTurn taken).links[1].setting.parser = .waitRecord := by decide +kernel

theorem test_link_commands_witness :
    let s (st : GalleyState) (p : ParserState) (code : Code) (ps : List (Option Word)) (c : Option Word) :=
      turnWith p c (fun x => { x with pending := some { code := code, params := ps, passOver := false } }) (setting st)
    let galleyOf (t : State) := t.table.records[31].map fun r => (r.state, r.cls)
    let stray (t : State) := t.links[1].rx.stray
    (s .receiving .inGalley .kill [] (some 500)).table.order = [] ++ (31 : Fin 32) :: [] ∧
      galleyOf (after .setterTurn (s .receiving .inGalley .kill [] (some 500))) = some (.done, 2) ∧
      (after .setterTurn (s .receiving .inGalley .kill [] (some 500))).links[1].setting.parser = .skip ∧
      galleyOf (after .setterTurn (s .failed .idle .resume [] (some 500))) = some (.pressed, 2) ∧
      galleyOf (after .setterTurn (s .set .skip .class [some 500] (some 9))) = some (.set, 3) ∧
      stray (after .setterTurn (s .set .idle .class [some 500] none)) = 3 ∧
      stray (after .setterTurn (s .set .skip .kill [] (some 0))) = 2 ∧
      stray (after .setterTurn (s .done .inGalley .resume [] (some 500))) = 2 := by decide +kernel

theorem test_command_target (st : GalleyState) (h : st ≠ .done) : Target (setting st).table 1 500 31 :=
  ⟨[], [], rfl, ⟨{ galley with state := st, lines := [lineOf 1 []] }, by simp [setting, withGalley], rfl, rfl, h⟩, by simp⟩

theorem test_open_context_witness :
    let c : Ctx := { font := some 1, pointSize := 20, setSize := 20, track := 0, ligatures := true }
    let s (n o : Nat) := onLink 0 (fun l => { l with
      rx := { l.rx with ring := ringOf [some 0xFF16] }
      setting := { l.setting with parser := .inGalley, galley := some 31, ctx := some c
                                  stack := List.replicate n c, overflow := o } }) (withGalley 31 galley State.reset)
    (s 5 0).links[0].setting.ctx = some c ∧ (s 5 0).links[0].setting.pending = none ∧
      (after .setterTurn (s 5 0)).links[0].setting.stack.length = 6 ∧
      (after .setterTurn (s 6 255)).links[0].setting.overflow = 255 ∧
      ((after .setterTurn (s 6 255)).table.records[31].map fun r => hasFlag r.flags .contextOverflow) = some true := by
  decide +kernel

/-- A spacing element of width 24 with its escapement. -/
def letter (first : Bool) : LineElement :=
  .glyph first 480 { slot := some 2, glyph := 1, width := 24, form := .isolated, joinsPrev := false, joinsNext := false
                     cls := defaultClass, pointSize := 20, setSize := 20, track := 0, characters := 1, kern := 0
                     missing := false, wantsFont := false, baseless := false, pointAfter := false, span := 1, marks := [] }

theorem test_justified_line_witness :
    let h := headerOf headerVals
    let line : LineAssembly := { emptyLine with elements := [letter true, .space, letter true], glyphSum := 960, spaces := 1
                                                count := 3, setSize := 20, spaceMin := 240, spaceNormal := 360
                                                spaceMax := 600, letterLimit := 40 }
    0 < line.spaces ∧ line.spaces = line.elements.countP (fun e => decide (e = .space)) ∧
      line.glyphSum = (line.elements.map LineElement.base).sum ∧ line.spaceMin ≤ line.spaceNormal ∧
      line.spaceNormal ≤ line.spaceMax ∧ line.glyphSum + line.spaces * line.spaceMin ≤ h.fineMeasure ∧
      (setByQuad (Vector.replicate 8 emptySlotRecord) h line .justify noLineFlags).width = h.fineMeasure := by
  decide +kernel

theorem test_exposure_order_witness :
    (∀ x ∈ [(LineElement.space, false)], x.2 = false) ∧ (∀ x ∈ [(LineElement.space, true)], x.2 = true) ∧
      exposureOrder false [(LineElement.space, false), (LineElement.elongation 0 1 0 0 0, true),
        (LineElement.elongation 0 2 0 0 0, true)] =
        [LineElement.space, LineElement.elongation 0 2 0 0 0, LineElement.elongation 0 1 0 0 0] ∧
      exposureOrder true [(LineElement.space, true), (LineElement.elongation 0 1 0 0 0, false),
        (LineElement.elongation 0 2 0 0 0, false), (LineElement.elongation 0 3 0 0 0, true)] =
        [LineElement.elongation 0 3 0 0 0, LineElement.elongation 0 1 0 0 0, LineElement.elongation 0 2 0 0 0,
          LineElement.space] := by decide +kernel

/-! ## Witnesses: film -/

theorem test_selection_witness :
    let t : GalleyTable := { emptyTable with
      records := ((emptyTable.records.set 0 (some { galley with cls := 2, deadline := 9 })).set 1
        (some { galley with cls := 2, deadline := 3 })).set 2 (some { galley with cls := 3, deadline := 0 })
      eligible := [2, 0, 1] }
    (∀ g ∈ t.eligible, (t.records[g]).isSome = true) ∧ t.choose = some 1 ∧ emptyTable.choose = none := by decide +kernel

theorem test_cache_clear_ack_witness :
    let s := onUnit (fun m => { m with unit := .sending, out := some { record := .cacheClear, void := false } }) State.reset
    let w := withGalley 7 { galley with state := .set, ended := true } s
    let w : State := { w with table := { w.table with eligible := [7] } }
    s.imaging.galley = none ∧ s.table.choose = none ∧ (after .unitAck s).imaging.unit = .ready ∧
      w.table.choose = some 7 ∧
      (after .unitAck w).imaging.out = some { record := .galleyOpen 500 1 false 192, void := false } := by decide +kernel

theorem test_line_ack_witness :
    let s := onUnit (fun m => { m with pos := 3, inProgress := true }) (filming (.exposeGlyph 0 10 0 20 20))
    (∀ e ∈ [placed 1 0, box, placed 2 10].drop 3, e.slot = none) ∧ s.imaging.galley = some 7 ∧
      (after .unitAck s).imaging.out = some { record := .advance 176, void := false } ∧
      (after .unitAck s).table.freeLines = 511 ∧
      (after .unitAck (filming (.galleyOpen 500 1 false 192))).imaging.out = some { record := .advance 176, void := false } := by
  decide +kernel

theorem test_walk_witness :
    let e : MirrorEntry := { entry := 9, slot := 2, glyph := 1, blank := true }
    let hit := onUnit (fun m => { m with mirror := [e], inProgress := true }) (filming (.advance 176))
    let miss := onUnit (fun m => { m with mirror := [], inProgress := true }) (filming (.advance 176))
    let lost := withSlot 2 { slotOf .resident 1 1 3 with imageLost := true } miss
    let empty := onUnit (fun m => { m with pos := 1, inProgress := true }) (filming (.exposeGlyph 0 0 0 20 20))
    let loaded := onUnit (fun m => { m with pos := 1, inProgress := true }) (filming (.loadOutline 0 (some [])))
    MirrorSound hit.imaging.mirror ∧ [placed 1 0, box, placed 2 10].drop 1 = [box] ++ placed 2 10 :: [] ∧
      (after .unitAck hit).imaging.out = some { record := .exposeGlyph 9 0 0 20 20, void := false } ∧
      ((after .unitAck hit).table.records[7].map fun r => hasFlag r.flags .imageLost) = some true ∧
      (after .unitAck miss).imaging.fetch = some { slot := 2, bank := 3, offset := 64, count := 3 } ∧
      (after .unitAck lost).imaging.mirror = [{ entry := 0, slot := 2, glyph := 1, blank := true }] ∧
      (after .unitAck empty).imaging.out = some { record := .loadOutline 0 (some []), void := false } ∧
      (after .unitAck loaded).imaging.out = some { record := .exposeGlyph 0 0 0 20 20, void := false } :=
  ⟨⟨List.pairwise_singleton _ _, List.pairwise_singleton _ _⟩, by decide +kernel⟩

theorem test_close_ack_witness :
    (filming .killMark).imaging.out = some { record := .killMark, void := false } ∧
      (after .unitAck (filming .killMark)).imaging.out = some { record := .galleyClose, void := false } ∧
      ((filming .galleyClose).imaging.galley = some 7 ∧
        ((after .unitAck (filming .galleyClose)).table.records[7].map fun r => (r.state, r.outcome)) = some (.done, .exposed) ∧
        (after .unitAck (filming .galleyClose)).imaging.unit = .ready) := by decide +kernel

theorem test_fault_witness :
    let idle := onUnit (fun m => { m with unit := .sending, out := some { record := .cacheClear, void := false } }) State.reset
    (filming (.advance 176)).imaging.out = some { record := .advance 176, void := false } ∧
      (after (.unitFault .jam) (filming (.advance 176))).attention.unitFault = some .jam ∧
      ((after .recordTimeout (filming (.advance 176))).table.records[7].map fun r => (r.state, r.lines.length)) =
        some (.failed, 2) ∧
      idle.imaging.galley = none ∧ (after .recordTimeout idle).attention.unitTimeout = true := by decide +kernel

theorem test_void_record_witness :
    let s (u : UnitState) := onUnit (fun m => { m with unit := u, ready := true, out := some { record := .advance 80, void := true } }) State.reset
    (Record.advance 80).sentWhole = true ∧
      (after (.unitFault .lamp) (s .sending)).imaging.out = some { record := .cacheClear, void := false } ∧
      (after .unitAck (s .offline)).imaging.out = none := by decide +kernel

theorem test_answers_out_of_place_witness :
    State.reset.imaging.out = none ∧
      (filming (.loadOutline 3 none)).imaging.out = some { record := .loadOutline 3 none, void := false } ∧
      after .unitAck (filming (.loadOutline 3 none)) = filming (.loadOutline 3 none) ∧
      after (.unitAnswerInvalid 0x0104) (filming .killMark) = filming .killMark := by decide +kernel

theorem test_unit_ready_witness :
    let s (u : UnitState) (r void : Bool) := onUnit (fun m => { m with unit := u, ready := r, out := some { record := .advance 80, void := void } }) State.reset
    (State.reset.imaging.ready = false ∧ State.reset.imaging.unit = .offline ∧
      (after .unitReadyOn State.reset).imaging.out = some { record := .cacheClear, void := false }) ∧
      (after .unitReadyOn (s .offline false true)).imaging.unit = .sending ∧
      (after .unitReadyOn (s .fault false false)).imaging.unit = .fault ∧
      (after .unitReadyOff (s .offline true false)).imaging.ready = false ∧
      (after .unitReadyOff (s .sending true true)).imaging.unit = .offline ∧
      (after .unitReadyOff (filming (.advance 80))).attention.unitFault = some .notReady ∧
      ((after .unitReadyOff (filming (.advance 80))).table.records[7].map (·.state)) = some .failed := by decide +kernel

/-! ## Witnesses: invariants -/

/-- A state with a slot in use, a galley on film and a command waiting. -/
def rich : State := (filming (.advance 176)).withPending [.unitAck]

theorem test_rich_step : step rich = .next (after .unitAck (rich.withPending [])) := rfl

theorem test_rich_store : StoreCanonical rich := by
  refine ⟨fun p => ?_, trivial⟩
  have h : ∀ p : Fin 8, (rich.banks[p].board = none ∨ rich.banks[p].board = some []) ∧ rich.banks[p].cartridge = none := by
    decide +kernel
  refine ⟨?_, by rw [(h p).2]; exact trivial⟩
  rcases (h p).1 with e | e <;> rw [e]
  · exact trivial
  · exact ⟨List.Pairwise.nil, by simp⟩

theorem test_rich_mirror : MirrorSound rich.imaging.mirror := ⟨List.Pairwise.nil, List.Pairwise.nil⟩

theorem test_rich_bus : BusSound rich :=
  ⟨(fun _ h => nomatch h), fun _ u => by cases u <;> decide +kernel⟩

theorem test_rich_settled : Settled rich :=
  ⟨(fun h => nomatch h), (fun h => nomatch h), (by
    have h : ∀ i : Fin 4, rich.links[i].tx.feReady = false := by decide +kernel
    intro i _ hr
    rw [h i] at hr
    cases hr), fun _ => rfl⟩

theorem test_rich_links : ∀ i : Fin 4, LinkSound rich.links[i] := by
  have h : ∀ i : Fin 4, rich.links[i] = resetLink := by decide +kernel
  intro i
  rw [h i]
  exact ⟨⟨by decide, by decide, by decide, fun _ => rfl⟩,
    ⟨by decide, by decide, by decide, by decide, by decide, by decide⟩,
    ⟨fun _ => ⟨rfl, rfl, rfl⟩, fun h => (nomatch h), fun h => (nomatch h)⟩⟩

theorem test_rich_directory : DirectorySound rich := by
  have hl : ∀ i : Fin 8, rich.slots[i].state ≠ .loading := by decide +kernel
  exact ⟨fun i => ⟨fun h => absurd h (hl i), fun ⟨_, h, _⟩ => nomatch h⟩, by decide +kernel, by decide +kernel⟩

/-- The one galley of the rich state. -/
def richGalley : Galley :=
  { galley with state := .exposing, lines := [lineOf 1 [placed 1 0, box, placed 2 10], lineOf 2 []] }

theorem test_rich_records (g : Fin 32) (r : Galley) (h : rich.table.records[g] = some r) : g = 7 ∧ r = richGalley := by
  have key : ∀ k : Fin 32, rich.table.records[k] = if k = 7 then some richGalley else none := by decide +kernel
  rw [key g] at h
  split at h
  · next e => exact ⟨e, (Option.some.inj h).symm⟩
  · cases h

theorem test_rich_counts : CountsSound rich := by
  refine ⟨by decide +kernel, fun g r h => ?_, by decide +kernel, by decide +kernel⟩
  rw [(test_rich_records g r h).2]
  decide

theorem test_rich_table : TableSound rich := by
  have seven : rich.table.records[(7 : Fin 32)] = some richGalley := by decide +kernel
  refine ⟨by decide +kernel, fun g r h hs => ?_, by decide, (fun g hg => nomatch hg), fun g => ⟨fun h => ?_, ?_⟩,
    fun o ho hc => ?_, fun i g h => ?_, fun i g h => ?_⟩
  · rw [(test_rich_records g r h).2] at hs
    cases hs
  · have e : (7 : Fin 32) = g := Option.some.inj h
    subst e
    exact ⟨richGalley, seven, rfl⟩
  · rintro ⟨r, h, _⟩
    rw [(test_rich_records g r h).1]
    rfl
  · have e : ({ record := .advance 176, void := false } : Outstanding) = o := Option.some.inj ho
    subst e
    rcases hc.2 with c | c <;> cases c
  · have n : ∀ k : Fin 4, rich.links[k].tx.reply = none := by decide +kernel
    rw [n i] at h
    cases h
  · have n : ∀ k : Fin 4, rich.links[k].setting.galley = none := by decide +kernel
    rw [n i] at h
    cases h

theorem test_rich_uses : UsesSound rich := by
  refine ⟨fun g r h => ?_, fun i g r h => ?_, fun e h => nomatch h⟩
  · rw [(test_rich_records g r h).2]
    decide
  · have n : ∀ k : Fin 4, rich.links[k].setting.galley = none := by decide +kernel
    rw [n i] at h
    cases h

/-- A command that leaves the other parts alone, with its next state; a library command taken whole. -/
theorem test_frame_witness :
    (exec (.holdRead 3 64) State.reset = .next State.reset ∧ bringsWords (.holdRead 3 64) State.reset = false) ∧
      bringsWords .responseRead (inPhase (.responding [0x0100]) State.reset) = false ∧
      (State.reset.port.phase = .ready ∧ (LibCommand.killGalley 31).complete = true ∧
        exec (LibCommand.killGalley 31).instr (setting .receiving) = .next (after (.killGalley 31) (setting .receiving))) :=
  ⟨⟨rfl, rfl⟩, rfl, rfl, rfl, rfl⟩

end Sys2Proof.Tests
end

