-- ==== Sys2Proof/Proofs/Classes.lean ====
section
/-! Character classes (chapter 2): an entry covers a code bit by bit, the winning entry is the best and first covering
one (R26), and the class of a code by its winner (R27, R28). -/

namespace Sys2Proof.Machine

/-! ## Covering (R26) -/

theorem ClassEntry.covers_iff (e : ClassEntry) (code : Word) :
    e.covers code = true ↔
      ∀ i, i < 16 → e.careMask.getLsbD i = true → code.getLsbD i = e.matchValue.getLsbD i := by
  have bitwise : (code ^^^ e.matchValue) &&& e.careMask = 0#16 ↔
      ∀ i, i < 16 → ((code ^^^ e.matchValue) &&& e.careMask).getLsbD i = false :=
    ⟨fun h i _ => by rw [h, BitVec.getLsbD_zero],
      fun h => BitVec.eq_of_getLsbD_eq fun i hi => by rw [h i hi, BitVec.getLsbD_zero]⟩
  have oneBit (c m v : Bool) : ((c ^^ m) && v) = false ↔ (v = true → c = m) := by
    cases v <;> simp
  rw [ClassEntry.covers, decide_eq_true_iff, bitwise]
  simp only [BitVec.getLsbD_and, BitVec.getLsbD_xor, oneBit]

/-! ## The winning entry (R26) -/

@[simp] theorem winningEntry_nil (code : Word) : winningEntry [] code = none := rfl

theorem winningEntry_concat (classes : List ClassEntry) (x : ClassEntry) (code : Word) :
    winningEntry (classes ++ [x]) code =
      if x.covers code = true then betterEntry (winningEntry classes code) x else winningEntry classes code := by
  cases hx : x.covers code <;> simp [winningEntry, List.filter_append, hx]

theorem betterEntry_ne_none (lead : Option ClassEntry) (x : ClassEntry) : betterEntry lead x ≠ none := by
  cases lead with
  | none => simp [betterEntry]
  | some b => by_cases h : x.priority < b.priority <;> simp [betterEntry, h]

theorem winningEntry_eq_none_iff (classes : List ClassEntry) (code : Word) :
    winningEntry classes code = none ↔ ∀ e ∈ classes, e.covers code = false := by
  induction classes using List.reverseRecOn with
  | nil => simp
  | append_singleton l x ih =>
    rw [winningEntry_concat, List.forall_mem_append, List.forall_mem_singleton, ← ih]
    cases hx : x.covers code <;> simp [betterEntry_ne_none]

/-- The entry `e` stands at place `i`, covers the code, and every covering entry has a higher priority number, or the
same and no earlier place (R26). -/
def BestAt (classes : List ClassEntry) (code : Word) (i : Nat) (e : ClassEntry) : Prop :=
  classes[i]? = some e ∧ e.covers code = true ∧
    ∀ (j : Nat) (f : ClassEntry), classes[j]? = some f → f.covers code = true →
      e.priority < f.priority ∨ (e.priority = f.priority ∧ i ≤ j)

section
variable {classes : List ClassEntry} {code : Word} {e f x : ClassEntry} {i j : Nat}

theorem BestAt.unique (he : BestAt classes code i e) (hf : BestAt classes code j f) : e = f := by
  obtain ⟨atI, eCovers, eBest⟩ := he
  obtain ⟨atJ, fCovers, fBest⟩ := hf
  have samePlace : i = j := by
    have := eBest j f atJ fCovers
    have := fBest i e atI eCovers
    omega
  subst samePlace
  exact Option.some.inj (atI.symm.trans atJ)

theorem BestAt.priority_le (he : BestAt classes code i e) (hf : f ∈ classes) (fCovers : f.covers code = true) :
    e.priority ≤ f.priority := by
  obtain ⟨-, -, best⟩ := he
  obtain ⟨j, atJ⟩ := List.mem_iff_getElem?.1 hf
  have := best j f atJ fCovers
  omega

/-- An entry of a list with one more at its end is an older one or the new one. -/
theorem getElem?_concat_cases (h : (classes ++ [x])[j]? = some f) :
    classes[j]? = some f ∨ (j = classes.length ∧ f = x) := by
  rcases Nat.lt_trichotomy j classes.length with hj | rfl | hj
  · exact .inl (by rwa [List.getElem?_append_left hj] at h)
  · exact .inr ⟨rfl, by simpa using h.symm⟩
  · rw [List.getElem?_eq_none (by simpa using hj)] at h
    cases h

/-- A later entry that does not cover the code, or has no lower priority number, takes nothing from the best one. -/
theorem BestAt.concat (he : BestAt classes code i e) (hx : x.covers code = true → e.priority ≤ x.priority) :
    BestAt (classes ++ [x]) code i e := by
  obtain ⟨atI, eCovers, best⟩ := he
  have iLt : i < classes.length := (List.getElem?_eq_some_iff.1 atI).1
  refine ⟨by rwa [List.getElem?_append_left iLt], eCovers, fun j f atJ fCovers => ?_⟩
  rcases getElem?_concat_cases atJ with old | ⟨rfl, rfl⟩
  · exact best j f old fCovers
  · have := hx fCovers
    omega

/-- A covering entry at the end of the list is the best one if its priority number is below that of all others that
cover the code. -/
theorem bestAt_length (xCovers : x.covers code = true)
    (below : ∀ f ∈ classes, f.covers code = true → x.priority < f.priority) :
    BestAt (classes ++ [x]) code classes.length x := by
  refine ⟨List.getElem?_concat_length, xCovers, fun j f atJ fCovers => ?_⟩
  rcases getElem?_concat_cases atJ with old | ⟨rfl, rfl⟩
  · exact .inl (below f (List.mem_of_getElem? old) fCovers)
  · exact .inr ⟨rfl, le_rfl⟩

/-- By induction from the end of the list, as the fold meets the entries: the leading entry is the best of those met. -/
theorem exists_bestAt_of_winningEntry (h : winningEntry classes code = some e) : ∃ i, BestAt classes code i e := by
  induction classes using List.reverseRecOn generalizing e with
  | nil => simp at h
  | append_singleton l x ih =>
    rw [winningEntry_concat] at h
    split at h
    next xCovers =>
      cases lead : winningEntry l code with
      | none =>
        have uncovered := (winningEntry_eq_none_iff l code).1 lead
        obtain rfl : x = e := by simpa [lead, betterEntry] using h
        exact ⟨l.length, bestAt_length xCovers fun f hf fCovers => by simp [uncovered f hf] at fCovers⟩
      | some b =>
        obtain ⟨i, bBest⟩ := ih lead
        by_cases lower : x.priority < b.priority
        · obtain rfl : x = e := by simpa [lead, betterEntry, lower] using h
          exact ⟨l.length, bestAt_length xCovers fun f hf fCovers =>
            lower.trans_le (bBest.priority_le hf fCovers)⟩
        · obtain rfl : b = e := by simpa [lead, betterEntry, lower] using h
          exact ⟨i, bBest.concat fun _ => Nat.le_of_not_lt lower⟩
    next xMisses =>
      obtain ⟨i, eBest⟩ := ih h
      exact ⟨i, eBest.concat fun xCovers => absurd xCovers xMisses⟩

theorem winningEntry_isSome_of_covers (h : ∃ e ∈ classes, e.covers code = true) :
    (winningEntry classes code).isSome = true := by
  obtain ⟨e, he, eCovers⟩ := h
  rw [Option.isSome_iff_ne_none]
  intro noWinner
  simp [(winningEntry_eq_none_iff classes code).1 noWinner e he] at eCovers

theorem winningEntry_eq_some_iff : winningEntry classes code = some e ↔ ∃ i, BestAt classes code i e := by
  refine ⟨exists_bestAt_of_winningEntry, fun ⟨i, best⟩ => ?_⟩
  have ⟨atI, eCovers, _⟩ := best
  obtain ⟨f, won⟩ := Option.isSome_iff_exists.1
    (winningEntry_isSome_of_covers ⟨e, List.mem_of_getElem? atI, eCovers⟩)
  obtain ⟨j, fBest⟩ := exists_bestAt_of_winningEntry won
  rw [won, best.unique fBest]

/-! ## The class of a code (R27, R28) -/

@[simp] theorem classify_wordSpace (classes : List ClassEntry) : classify classes 0x0020#16 = spaceClass := rfl

theorem classify_of_no_winner (h : winningEntry classes code = none) (hc : code ≠ 0x0020#16) :
    classify classes code = defaultClass := by
  simp [classify, hc, h]

theorem classify_of_winner (h : winningEntry classes code = some e) (hc : code ≠ 0x0020#16) :
    classify classes code = if e.cls.brk = .space then spaceClass else e.cls := by
  simp [classify, hc, h]

end

/-- Settles O20: the fold of the winning entry gives the best and first covering entry, and the class follows from
the winner. -/
theorem winningEntryIsBestAndFirst : Obligations.WinningEntryIsBestAndFirst := by
  unfold Obligations.WinningEntryIsBestAndFirst
  intro classes code
  refine ⟨(·.covers_iff code), fun _ => winningEntry_eq_some_iff, fun e won hc => ⟨fun ordinary => ?_, fun space => ?_⟩,
    fun uncovered hc => ?_, winningEntry_isSome_of_covers, classify_wordSpace classes⟩
  · simp [classify_of_winner won hc, ordinary]
  · simp [classify_of_winner won hc, space]
  · exact classify_of_no_winner ((winningEntry_eq_none_iff classes code).2 uncovered) hc

end Sys2Proof.Machine
end

/-! OPEN CONTEXT (R51): the stack and the overflow count as the setting context holds them, the flags that stand on a
galley through a turn and the reactions of its event (R113), and the turn that takes the code IN GALLEY. -/

namespace Sys2Proof.Machine

/-! ## Records and flags that stand (R113) -/

/-- Every record of the first table stands in the second, with all the flags it carried. -/
def FlagsStand (t t' : GalleyTable) : Prop :=
  ∀ (g : Fin 32) (r : Galley), t.records[g] = some r →
    ∃ r', t'.records[g] = some r' ∧ ∀ f, hasFlag r.flags f = true → hasFlag r'.flags f = true

theorem FlagsStand.refl (t : GalleyTable) : FlagsStand t t := fun _ r hr => ⟨r, hr, fun _ => id⟩

theorem FlagsStand.trans {t u v : GalleyTable} (a : FlagsStand t u) (b : FlagsStand u v) : FlagsStand t v := by
  intro g r hr
  obtain ⟨q, hq, rq⟩ := a g r hr
  obtain ⟨p, hp, qp⟩ := b g q hq
  exact ⟨p, hp, fun f h => qp f (rq f h)⟩

theorem GalleyTable.modify_same {t : GalleyTable} {g : Fin 32} {r : Galley} (hr : t.records[g] = some r)
    (f : Galley → Galley) : (t.modify g f).records[g] = some (f r) := by
  simp [GalleyTable.modify, hr]

theorem GalleyTable.modify_other (t : GalleyTable) {g h : Fin 32} (hgh : g ≠ h) (f : Galley → Galley) :
    (t.modify g f).records[h] = t.records[h] := by
  unfold GalleyTable.modify
  split
  · rfl
  · exact set_other _ hgh _

theorem FlagsStand.modify (t : GalleyTable) (g : Fin 32) {f : Galley → Galley}
    (hf : ∀ r e, hasFlag r.flags e = true → hasFlag (f r).flags e = true) : FlagsStand t (t.modify g f) := by
  intro h r hr
  by_cases hgh : g = h
  · subst hgh
    exact ⟨f r, GalleyTable.modify_same hr f, hf r⟩
  · exact ⟨r, (t.modify_other hgh f).trans hr, fun _ => id⟩

theorem Galley.hasFlag_raiseFlag (r : Galley) (f e : GalleyFlag) :
    hasFlag (r.raiseFlag f).flags e = true ↔ hasFlag r.flags e = true ∨ e = f := by
  simpa using (r.raiseFlag_raised true f).flags e

/-! ## Flags through the reactions of an event (log 7) -/

theorem FlagsStand.select (t : GalleyTable) (g : Fin 32) : FlagsStand t (t.select g) :=
  FlagsStand.modify (t.leaveEligible g) g fun _ _ => id

theorem FlagsStand.takeReply (t : GalleyTable) (i : Fin 4) (l : Link) : FlagsStand t (takeReply t i l).1 := by
  unfold Machine.takeReply
  split
  · split
    · exact .refl t
    · split
      · exact .refl t
      · split
        · exact .refl t
        · exact .modify t _ fun _ _ => id
  · exact .refl t

@[simp] theorem Film.betweenLines_table (f : Film) : f.betweenLines.table = f.table := by
  unfold Film.betweenLines
  dsimp only
  repeat' split
  all_goals rfl

@[simp] theorem State.wakeWalk_table (s : State) : s.wakeWalk.table = s.table := by
  unfold State.wakeWalk
  split
  · rw [State.putFilm_table, Film.betweenLines_table]
    rfl
  · rfl

theorem Film.open_table (f : Film) (g : Fin 32) : (f.open g).table = f.table.select g := by
  unfold Film.open
  dsimp only
  split <;> rfl

theorem State.selectionRound_flagsStand (s : State) : FlagsStand s.table s.selectionRound.table := by
  unfold State.selectionRound
  split
  · split
    · exact .refl _
    · rw [State.putFilm_table, Film.open_table]
      exact .select _ _
  · exact .refl _

theorem State.replyOn_flagsStand (s : State) (i : Fin 4) : FlagsStand s.table (s.replyOn i).table :=
  .takeReply s.table i s.links[i]

theorem State.replies_flagsStand (s : State) : FlagsStand s.table s.replies.table :=
  (((s.replyOn_flagsStand 0).trans (State.replyOn_flagsStand _ 1)).trans (State.replyOn_flagsStand _ 2)).trans
    (State.replyOn_flagsStand _ 3)

theorem State.settle_flagsStand (s : State) : FlagsStand s.table s.settle.table := by
  have selected : FlagsStand s.table s.wakeWalk.selectionRound.table := by
    simpa using s.wakeWalk.selectionRound_flagsStand
  have given : s.wakeWalk.selectionRound.giveBus.table = s.wakeWalk.selectionRound.table := by rw [State.giveBus_eq]
  have replied : FlagsStand s.wakeWalk.selectionRound.table s.wakeWalk.selectionRound.giveBus.replies.table :=
    given ▸ s.wakeWalk.selectionRound.giveBus.replies_flagsStand
  have noticed (u : State) : FlagsStand u.table u.noticeStall.table := by
    rw [State.noticeStall_eq]
    exact .refl _
  exact (selected.trans replied).trans (noticed _)

/-! ## A flag raised on the current galley -/

@[simp] theorem Bench.withSetting_setting (b : Bench) (f : Setting → Setting) :
    (b.withSetting f).link.setting = f b.link.setting := rfl

@[simp] theorem Bench.withSetting_table (b : Bench) (f : Setting → Setting) : (b.withSetting f).table = b.table := rfl

@[simp] theorem Bench.raise_link (b : Bench) (f : GalleyFlag) : (b.raise f).link = b.link := by
  unfold Bench.raise
  split <;> rfl

theorem Bench.raise_flagsStand (b : Bench) (f : GalleyFlag) : FlagsStand b.table (b.raise f).table := by
  unfold Bench.raise
  split
  · exact .refl _
  · exact .modify _ _ fun r e he => (r.hasFlag_raiseFlag f e).2 (.inl he)

theorem Bench.raise_current {b : Bench} {g : Fin 32} {r : Galley} (hg : b.link.setting.galley = some g)
    (hr : b.table.records[g] = some r) (f : GalleyFlag) : (b.raise f).table.records[g] = some (r.raiseFlag f) := by
  simp only [Bench.raise, hg]
  exact GalleyTable.modify_same hr _

/-! ## OPEN CONTEXT (R51) -/

theorem Bench.openContext_of_room {b : Bench} (room : b.link.setting.stack.length < 6) :
    b.openContext = b.withSetting fun x => { x with stack := b.ctx :: x.stack } := by
  simp [Bench.openContext, room]

theorem Bench.openContext_of_full {b : Bench} (full : 6 ≤ b.link.setting.stack.length) :
    b.openContext =
      (b.withSetting fun x => { x with overflow := min (x.overflow + 1) 255 }).raise .contextOverflow := by
  simp [Bench.openContext, Nat.not_lt.2 full]

/-- A setting context with one more context saved, or with one more counted that the full stack cannot take (R51). -/
def Setting.contextOpened (x : Setting) (c : Ctx) : Setting :=
  if x.stack.length < 6 then { x with stack := c :: x.stack } else { x with overflow := min (x.overflow + 1) 255 }

theorem Setting.contextOpened_of_room {x : Setting} (room : x.stack.length < 6) (c : Ctx) :
    x.contextOpened c = { x with stack := c :: x.stack } := if_pos room

theorem Setting.contextOpened_of_full {x : Setting} (full : 6 ≤ x.stack.length) (c : Ctx) :
    x.contextOpened c = { x with overflow := min (x.overflow + 1) 255 } := if_neg (Nat.not_lt.2 full)

/-- OPEN CONTEXT changes no more of the setting context than the stack and the overflow count. -/
theorem Setting.contextOpened_eq (x : Setting) (c : Ctx) :
    x.contextOpened c = { x with stack := (x.contextOpened c).stack, overflow := (x.contextOpened c).overflow } := by
  unfold Setting.contextOpened
  split <;> rfl

theorem Setting.contextOpened_stack_le {x : Setting} (bounded : x.stack.length ≤ 6) (c : Ctx) :
    (x.contextOpened c).stack.length ≤ 6 := by
  unfold Setting.contextOpened
  split
  next room => exact room
  next => exact bounded

theorem Bench.openContext_setting (b : Bench) : b.openContext.link.setting = b.link.setting.contextOpened b.ctx := by
  rcases Nat.lt_or_ge b.link.setting.stack.length 6 with room | full
  · rw [Bench.openContext_of_room room, Setting.contextOpened_of_room room, Bench.withSetting_setting]
  · rw [Bench.openContext_of_full full, Setting.contextOpened_of_full full, Bench.raise_link,
      Bench.withSetting_setting]

theorem Bench.openContext_flagsStand (b : Bench) : FlagsStand b.table b.openContext.table := by
  rcases Nat.lt_or_ge b.link.setting.stack.length 6 with room | full
  · rw [Bench.openContext_of_room room]
    exact .refl _
  · rw [Bench.openContext_of_full full]
    exact (b.withSetting _).raise_flagsStand _

theorem Bench.openContext_overflow_flag {b : Bench} {g : Fin 32} {r : Galley}
    (full : 6 ≤ b.link.setting.stack.length) (hg : b.link.setting.galley = some g)
    (hr : b.table.records[g] = some r) :
    ∃ r', b.openContext.table.records[g] = some r' ∧ hasFlag r'.flags .contextOverflow = true := by
  rw [Bench.openContext_of_full full]
  refine ⟨r.raiseFlag .contextOverflow, Bench.raise_current ?_ ?_ _, (r.hasFlag_raiseFlag _ _).2 (.inr rfl)⟩
  · exact hg
  · exact hr

/-! ## The turn that takes it IN GALLEY (R37, R57, R117) -/

theorem Bench.actMarker_of_inGalley {b : Bench} (hp : b.parser = .inGalley) :
    b.actMarker = (b.withSetting fun x => { x with markerDue := false, pending := none }).raise .damaged := by
  have parser : (b.withSetting fun x => { x with markerDue := false }).parser = .inGalley := hp
  simp only [Bench.actMarker, parser]
  rfl

/-- The Setter's view with the entry at the head of the ring gone. -/
def Bench.headGone (b : Bench) : Bench := { b with link := { b.link with rx := b.link.rx.take } }

@[simp] theorem sortWord_openContext : sortWord (some 0xFF16#16) = .code .openContext := by decide

theorem Bench.dealWord_openContext {b : Bench} (hp : b.parser = .inGalley) (hn : b.link.setting.pending = none) :
    b.dealWord (some 0xFF16#16) = b.openContext := by
  simp only [Bench.dealWord, hp, Bench.dealOutsideHeader, hn, Bench.sortInGalley, sortWord_openContext,
    Bench.codeInGalley]

section
variable {b : Bench} {e : RingEntry}

theorem Bench.takeEntry_of_not_idle (goesOn : b.measureMustWait e = false) (notIdle : b.parser ≠ .idle) :
    b.takeEntry e =
      if e.marker then (b.headGone.dealWord e.code).actMarker else b.headGone.dealWord e.code := by
  have uncounted : b.link.setting.parser ≠ .idle := notIdle
  simp [Bench.takeEntry, goesOn, Bench.headGone, Bench.parser, uncounted]

theorem Bench.takeEntry_openContext (hp : b.parser = .inGalley) (hn : b.link.setting.pending = none)
    (he : e.code = some 0xFF16#16) :
    b.takeEntry e = if e.marker then b.headGone.openContext.actMarker else b.headGone.openContext := by
  have goesOn : b.measureMustWait e = false := Bench.measureMustWait_of_code (by simp [he])
  have dealt : b.headGone.dealWord e.code = b.headGone.openContext := he ▸ Bench.dealWord_openContext hp hn
  rw [Bench.takeEntry_of_not_idle goesOn (by simp [hp]), dealt]

theorem Bench.openContext_parser (b : Bench) : b.openContext.parser = b.parser := by
  rw [Bench.parser, Bench.openContext_setting, Setting.contextOpened_eq]
  rfl

theorem Bench.takeEntry_openContext_setting (hp : b.parser = .inGalley) (hn : b.link.setting.pending = none)
    (he : e.code = some 0xFF16#16) :
    (b.takeEntry e).link.setting =
      { b.link.setting.contextOpened b.ctx with markerDue := !e.marker && b.link.setting.markerDue } := by
  have opened : b.headGone.openContext.link.setting = b.link.setting.contextOpened b.ctx :=
    b.headGone.openContext_setting
  have pending : (b.link.setting.contextOpened b.ctx).pending = none := by rw [Setting.contextOpened_eq]; exact hn
  have due : (b.link.setting.contextOpened b.ctx).markerDue = b.link.setting.markerDue := by
    rw [Setting.contextOpened_eq]
  have parser : b.headGone.openContext.parser = .inGalley := (Bench.openContext_parser _).trans hp
  rw [Bench.takeEntry_openContext hp hn he]
  cases e.marker
  · simp [opened, ← due]
  · simp [Bench.actMarker_of_inGalley parser, opened, ← pending]

/-- The action of a damage marker on the entry raises DAMAGED and takes no flag away (R57). -/
theorem Bench.takeEntry_openContext_flagsStand (hp : b.parser = .inGalley) (hn : b.link.setting.pending = none)
    (he : e.code = some 0xFF16#16) : FlagsStand b.headGone.openContext.table (b.takeEntry e).table := by
  have parser : b.headGone.openContext.parser = .inGalley := (Bench.openContext_parser _).trans hp
  rw [Bench.takeEntry_openContext hp hn he]
  cases e.marker
  · exact .refl _
  · rw [if_pos rfl, Bench.actMarker_of_inGalley parser]
    exact (b.headGone.openContext.withSetting _).raise_flagsStand _

/-- The galley's record after the entry, CONTEXT OVERFLOW in its flags if the stack was full. -/
theorem Bench.takeEntry_openContext_record {g : Fin 32} {r : Galley} (hp : b.parser = .inGalley)
    (hn : b.link.setting.pending = none) (he : e.code = some 0xFF16#16) (hg : b.link.setting.galley = some g)
    (hr : b.table.records[g] = some r) :
    ∃ r', (b.takeEntry e).table.records[g] = some r' ∧
      (6 ≤ b.link.setting.stack.length → hasFlag r'.flags .contextOverflow = true) := by
  have stands := Bench.takeEntry_openContext_flagsStand hp hn he
  rcases Nat.lt_or_ge b.link.setting.stack.length 6 with room | full
  · obtain ⟨r', hr', -⟩ := (b.headGone.openContext_flagsStand.trans stands) g r hr
    exact ⟨r', hr', fun full => absurd room (Nat.not_lt.2 full)⟩
  · obtain ⟨q, hq, raised⟩ := Bench.openContext_overflow_flag (b := b.headGone) full hg hr
    obtain ⟨r', hr', kept⟩ := stands g q hq
    exact ⟨r', hr', fun _ => kept _ raised⟩

theorem Bench.turn_of_inGalley {rest : List RingEntry} (hp : b.parser = .inGalley) (hr : b.link.rx.ring = e :: rest) :
    b.turn = some (b.takeEntry e) := by
  simp [Bench.turn, hp, hr]

end

theorem State.bench_setting (s : State) (i : Fin 4) : (s.bench i).link.setting = s.links[i].setting := rfl

/-- A turn of the Setter as its link and the Galley Table show it: the reactions of the event leave the setting context
alone and take no flag away. -/
theorem exec_setterTurn_setting {s : State} {i : Fin 4} {b : Bench} (hi : s.rotation = i)
    (hb : (s.bench i).turn = some b) :
    ∃ t, exec .setterTurn s = .next t ∧ t.links[i].setting = b.link.setting ∧ FlagsStand b.table t.table := by
  refine ⟨_, exec_setterTurn hi hb, ?_, State.settle_flagsStand { s.putBench b with rotation := i + 1 }⟩
  rw [(State.settle_link _ i).2, State.putBench_link (i := i) (Bench.turn_id hb)]

/-- Settles O40: the turn takes the code, opens the context, acts on a damage marker of the entry, and is completed by
the reactions of the event; the last two change nothing of the stack and take no flag away. -/
theorem openContextSavesTheContext : Obligations.OpenContextSavesTheContext := by
  unfold Obligations.OpenContextSavesTheContext
  intro s e rest g r c i x parser pending galley ctx record ring code
  have current : (s.bench i).ctx = c := congrArg (Option.getD · _) ctx
  obtain ⟨t, turn, setting, settled⟩ :=
    exec_setterTurn_setting rfl (Bench.turn_of_inGalley (b := s.bench i) parser ring)
  obtain ⟨q, dealt, flagged⟩ :=
    Bench.takeEntry_openContext_record (b := s.bench i) parser pending code galley record
  obtain ⟨r', final, stand⟩ := settled g q dealt
  have opened : t.links[i].setting = { x.contextOpened c with markerDue := !e.marker && x.markerDue } := by
    rw [setting, Bench.takeEntry_openContext_setting (b := s.bench i) parser pending code, current, State.bench_setting]
  refine ⟨t, _, r', turn, opened, final, fun room => ?_, fun full => ?_, ?_, ?_⟩
  · rw [Setting.contextOpened_of_room room]
    exact ⟨rfl, rfl⟩
  · rw [Setting.contextOpened_of_full full]
    exact ⟨rfl, rfl, stand _ (flagged full)⟩
  · exact (Setting.contextOpened_stack_le · c)
  · rw [Setting.contextOpened_eq]
    exact ⟨ctx, parser, galley, rfl, rfl⟩

end Sys2Proof.Machine

/-! The raise of a placed glyph (R108): the two signs of a raise in dots, and where an entry of the placed-glyph list comes
from, a mark element or an element on the baseline (R109). -/

namespace Sys2Proof.Machine

/-! ## The raise in dots -/

theorem raiseDots_of_nonneg {raise : Int} (hr : 0 ≤ raise) (p : Nat) : raiseDots raise p = (raise * p + 4) / 9 :=
  if_pos hr

theorem raiseDots_of_neg {raise : Int} (hr : raise < 0) (p : Nat) : raiseDots raise p = -((-raise * p + 4) / 9) :=
  if_neg (Int.not_le.2 hr)

/-! ## The entries of a placed-glyph list -/

@[simp] theorem placeMark_markOf (h : Header) (x b : Nat) (m : MarkElement) : (placeMark h x b m).markOf = true := rfl

@[simp] theorem placeMark_raise (h : Header) (x b : Nat) (m : MarkElement) :
    (placeMark h x b m).raise = raiseDots m.raise m.pointSize := rfl

/-- An entry stands on the baseline, as those of spacing and elongation glyphs do, or is that of a mark element (R109). -/
theorem baseline_or_placeMark_of_mem_placeElements {h : Header} {e : PlacedGlyph} {els : List (LineElement × Nat)}
    {x : Nat} (he : e ∈ placeElements h x els) :
    (e.markOf = false ∧ e.raise = 0) ∨ ∃ y b m, e = placeMark h y b m := by
  induction els generalizing x with
  | nil => exact absurd he List.not_mem_nil
  | cons el rest ih =>
    obtain ⟨el, f⟩ := el
    cases el with
    | space => exact ih he
    | elongation i g w p s =>
      rcases List.mem_cons.1 he with rfl | later
      · exact .inl ⟨rfl, rfl⟩
      · exact ih later
    | glyph k b g =>
      rcases List.mem_cons.1 he with rfl | after
      · exact .inl ⟨rfl, rfl⟩
      · rcases List.mem_append.1 after with onBase | later
        · obtain ⟨m, -, rfl⟩ := List.mem_map.1 onBase
          exact .inr ⟨x, b, m, rfl⟩
        · exact ih later

theorem raise_eq_zero_of_mem_placeElements {h : Header} {e : PlacedGlyph} {els : List (LineElement × Nat)} {x : Nat}
    (he : e ∈ placeElements h x els) (notMark : e.markOf = false) : e.raise = 0 := by
  rcases baseline_or_placeMark_of_mem_placeElements he with ⟨-, zero⟩ | ⟨y, b, m, rfl⟩
  · exact zero
  · simp at notMark

/-- Settles O41: the two signs by the branches of the raise in dots, the baseline by where an entry comes from. -/
theorem raiseIsRoundedBothWays : Obligations.RaiseIsRoundedBothWays := by
  unfold Obligations.RaiseIsRoundedBothWays
  refine ⟨fun raise p => ⟨fun hr => raiseDots_of_nonneg hr p, fun hr => raiseDots_of_neg hr p⟩, ?_, placeMark_raise,
    fun _ _ _ _ => raise_eq_zero_of_mem_placeElements⟩
  rw [raiseDots_of_nonneg (by decide)]
  decide

end Sys2Proof.Machine

/-! What a step of the machine can be: the events of the table and what they are made of, so that an invariant of every step is
proved event by event (95, opening; R154). -/

namespace Sys2Proof.Machine

/-! ## Steps -/

@[simp] theorem exec_powerOnReset (s : State) : exec .powerOnReset s = .next s.powerOn := rfl
@[simp] theorem exec_commandBlockWord (s : State) (w : Word) : exec (.commandBlockWord w) s = .next (s.takeWord w) := rfl
@[simp] theorem exec_responseRead (s : State) : exec .responseRead s = .next s.responseTaken := rfl
@[simp] theorem exec_readStoreComplete (s : State) : exec .readStoreComplete s = .next s.readDone := rfl
@[simp] theorem exec_writeStoreComplete (s : State) : exec .writeStoreComplete s = .next s.writeDone := rfl
@[simp] theorem exec_installCopyRead (s : State) : exec .installCopyRead s = .next s.copyStep := rfl
@[simp] theorem exec_holdRequest (s : State) : exec .holdRequest s = .next (s.setHoldRequest true).settle := rfl
@[simp] theorem exec_holdRequestDrop (s : State) : exec .holdRequestDrop s = .next (s.setHoldRequest false).settle := rfl
@[simp] theorem exec_holdRead (s : State) (p : Fin 8) (o : BitVec 18) :
    exec (.holdRead p o) s = .next (s.stationReads p o.toNat) := rfl
@[simp] theorem exec_holdWrite (s : State) (p : Fin 8) (o : BitVec 18) (w : Word) :
    exec (.holdWrite p o w) s = .next (s.stationWrites p o.toNat w) := rfl
@[simp] theorem exec_presenceChange (s : State) (p : Fin 8) (k : Socket) (m : Option (List (Nat × Word))) :
    exec (.presenceChange p k m) s = .next (s.changePresence p k m) := rfl
@[simp] theorem exec_byteReceived (s : State) (i : Fin 4) (b : Byte) (pe fe : Bool) :
    exec (.byteReceived i b pe fe) s = .next (s.receiveByte i b pe fe) := rfl
@[simp] theorem exec_lineReturnToMark (s : State) (i : Fin 4) : exec (.lineReturnToMark i) s = .next (s.returnToMark i) := rfl
@[simp] theorem exec_breakSignal (s : State) (i : Fin 4) : exec (.breakSignal i) s = .next (s.takeBreak i) := rfl
@[simp] theorem exec_frontEndReadyOn (s : State) (i : Fin 4) :
    exec (.frontEndReadyOn i) s = .next (s.onLink i fun l => { l with tx := l.tx.readyOn }).settle := rfl
@[simp] theorem exec_frontEndReadyOff (s : State) (i : Fin 4) :
    exec (.frontEndReadyOff i) s = .next (s.onLink i fun l => { l with tx := l.tx.readyOff }) := rfl
@[simp] theorem exec_transmitByteSent (s : State) (i : Fin 4) : exec (.transmitByteSent i) s = .next (s.byteSent i) := rfl
@[simp] theorem exec_turn (s : State) : exec .setterTurn s = .next s.turn := rfl
@[simp] theorem exec_unitAck (s : State) : exec .unitAck s = .next s.ackUnit := rfl
@[simp] theorem exec_unitFault (s : State) (k : FaultAnswer) :
    exec (.unitFault k) s = .next (s.concludeRecord (some (faultKindOf k))) := rfl
@[simp] theorem exec_recordTimeout (s : State) : exec .recordTimeout s = .next (s.concludeRecord none) := rfl
@[simp] theorem exec_unitAnswerInvalid (s : State) (w : Word) : exec (.unitAnswerInvalid w) s = .next (s.answerWord w) := rfl
@[simp] theorem exec_unitReadyOn (s : State) : exec .unitReadyOn s = .next s.readyOnUnit := rfl
@[simp] theorem exec_unitReadyOff (s : State) : exec .unitReadyOff s = .next s.readyOffUnit := rfl
@[simp] theorem exec_outlineFetchDone (s : State) : exec .outlineFetchDone s = .next s.fetchDone := rfl

/-! ## The port's phases -/

/-- The port takes the next word offered: READY or TAKING (R154). -/
def PortPhase.takes (ph : PortPhase) : Prop := ph = .ready ∨ ∃ ws, ph = .taking ws

/-- The port leaves a word offered: ACTING or RESPONDING (R154). -/
def PortPhase.busy (ph : PortPhase) : Prop := (∃ op, ph = .acting op) ∨ ∃ r, ph = .responding r

theorem PortPhase.takes_or_isBusy (ph : PortPhase) : ph.takes ∨ ph.busy := ph.takes_or_busy

@[simp] theorem PortPhase.busy_responding (r : List Word) : (PortPhase.responding r).busy := .inr ⟨r, rfl⟩
@[simp] theorem PortPhase.busy_acting (op : StoreOp) : (PortPhase.acting op).busy := .inl ⟨op, rfl⟩
@[simp] theorem PortPhase.takes_ready : PortPhase.ready.takes := .inl rfl
@[simp] theorem PortPhase.takes_taking (ws : List Word) : (PortPhase.taking ws).takes := .inr ⟨ws, rfl⟩

theorem PortPhase.not_takes_of_busy {ph : PortPhase} (h : ph.busy) : ¬ ph.takes := by
  rcases h with ⟨_, rfl⟩ | ⟨_, rfl⟩ <;> rintro (h | ⟨_, h⟩) <;> cases h

/-! ## Invariants of every step -/

/-- A predicate of states that each event of the table keeps; the events of the library port are those it is made of:
words gathered, left offered, and a block's command acting (R154). -/
structure KeptByEvents (P : State → Prop) : Prop where
  queue : ∀ s q, P s → P (s.withPending q)
  powerOn : ∀ s, P s → P s.powerOn
  gather : ∀ s ws, s.port.phase.takes → P s → P (s.gather ws)
  keepOffered : ∀ s ws, s.port.phase.busy → P s → P (s.keepOffered ws)
  portReady : ∀ s, (∃ r, s.port.phase = .responding r) → P s → P s.portReady
  act : ∀ c s, s.port.phase.takes → P s → P (act c s)
  readDone : ∀ s, P s → P s.readDone
  writeDone : ∀ s, P s → P s.writeDone
  copyStep : ∀ s, P s → P s.copyStep
  hold : ∀ s b, P s → P (s.setHoldRequest b).settle
  stationReads : ∀ s p o, P s → P (s.stationReads p o)
  stationWrites : ∀ s p o w, o < Config.bankWords → P s → P (s.stationWrites p o w)
  presence : ∀ s p k m, P s → P (s.changePresence p k m)
  receiveByte : ∀ s i b pe fe, P s → P (s.receiveByte i b pe fe)
  returnToMark : ∀ s i, P s → P (s.returnToMark i)
  takeBreak : ∀ s i, P s → P (s.takeBreak i)
  readyOn : ∀ s i, P s → P (s.onLink i fun l => { l with tx := l.tx.readyOn }).settle
  readyOff : ∀ s i, P s → P (s.onLink i fun l => { l with tx := l.tx.readyOff })
  byteSent : ∀ s i, P s → P (s.byteSent i)
  turn : ∀ s, P s → P s.turn
  ackUnit : ∀ s, P s → P s.ackUnit
  conclude : ∀ s k, P s → P (s.concludeRecord k)
  readyOnUnit : ∀ s, P s → P s.readyOnUnit
  readyOffUnit : ∀ s, P s → P s.readyOffUnit
  fetchDone : ∀ s, P s → P s.fetchDone

section
variable {P : State → Prop}

theorem KeptByEvents.takeBlock (k : KeptByEvents P) {s : State} (takes : s.port.phase.takes) (hs : P s) (ws : List Word) :
    P (s.takeBlock ws) := by
  unfold State.takeBlock
  split
  · exact k.act _ s takes hs
  · exact k.gather s ws takes hs

theorem KeptByEvents.takeWord (k : KeptByEvents P) {s : State} (hs : P s) (w : Word) : P (s.takeWord w) := by
  unfold State.takeWord
  split
  · next h => exact k.takeBlock (.inl h) hs _
  · next h => exact k.takeBlock (.inr ⟨_, h⟩) hs _
  · next h => exact k.keepOffered s _ (.inl ⟨_, h⟩) hs
  · next h => exact k.keepOffered s _ (.inr ⟨_, h⟩) hs

theorem KeptByEvents.takeWords (k : KeptByEvents P) {s : State} (hs : P s) (ws : List Word) : P (s.takeWords ws) := by
  induction ws generalizing s with
  | nil => exact hs
  | cons w ws ih => exact ih (k.takeWord hs w)

theorem KeptByEvents.offer (k : KeptByEvents P) {s : State} (hs : P s) (c : LibCommand) : P (s.offer c) := by
  unfold State.offer
  split
  · next h =>
    split
    · exact k.act c s (.inl h) hs
    · exact k.takeWords hs _
  · exact k.takeWords hs _
  · next h => exact k.keepOffered s _ (.inl ⟨_, h⟩) hs
  · next h => exact k.keepOffered s _ (.inr ⟨_, h⟩) hs

theorem KeptByEvents.responseTaken (k : KeptByEvents P) {s : State} (hs : P s) : P s.responseTaken := by
  unfold State.responseTaken
  split
  · next h => exact k.takeWords (k.portReady s ⟨_, h⟩ hs) _
  all_goals exact hs

theorem KeptByEvents.answerWord (k : KeptByEvents P) {s : State} (hs : P s) (w : Word) : P (s.answerWord w) := by
  unfold State.answerWord
  split
  · exact k.ackUnit s hs
  · exact k.conclude s _ hs
  · exact k.conclude s _ hs
  · exact k.conclude s _ hs
  · exact hs

theorem KeptByEvents.exec (k : KeptByEvents P) {s t : State} (c : Instr) (hs : P s) (h : exec c s = .next t) : P t := by
  have offered (l : LibCommand) (e : Machine.exec l.instr s = .next t) : P t := by
    rw [l.exec_instr] at e
    injection e with e
    exact e ▸ k.offer hs l
  cases c with
  | installFont b o => exact offered (.installFont b o) h
  | retireFont n => exact offered (.retireFont n) h
  | readStore b o n => exact offered (.readStore b o n) h
  | writeStore b o n ws => exact offered (.writeStore b o n ws) h
  | loadClassList n es => exact offered (.loadClassList n es) h
  | setLink l r e st => exact offered (.setLink l r e st) h
  | killGalley n => exact offered (.killGalley n) h
  | resumeGalley n => exact offered (.resumeGalley n) h
  | setClass n c => exact offered (.setClass n c) h
  | clearUnit => exact offered .clearUnit h
  | readStatus n => exact offered (.readStatus n) h
  | acknowledgeAttention n => exact offered (.acknowledgeAttention n) h
  | libraryReset => exact offered .libraryReset h
  | badCommand w => exact offered (.badCommand w) h
  | powerOnReset => injection h with h; exact h ▸ k.powerOn s hs
  | commandBlockWord w => injection h with h; exact h ▸ k.takeWord hs w
  | responseRead => injection h with h; exact h ▸ k.responseTaken hs
  | readStoreComplete => injection h with h; exact h ▸ k.readDone s hs
  | writeStoreComplete => injection h with h; exact h ▸ k.writeDone s hs
  | installCopyRead => injection h with h; exact h ▸ k.copyStep s hs
  | holdRequest => injection h with h; exact h ▸ k.hold s true hs
  | holdRequestDrop => injection h with h; exact h ▸ k.hold s false hs
  | holdRead p o => injection h with h; exact h ▸ k.stationReads s p _ hs
  | holdWrite p o w => injection h with h; exact h ▸ k.stationWrites s p _ w o.isLt hs
  | presenceChange p b m => injection h with h; exact h ▸ k.presence s p b m hs
  | byteReceived i b pe fe => injection h with h; exact h ▸ k.receiveByte s i b pe fe hs
  | lineReturnToMark i => injection h with h; exact h ▸ k.returnToMark s i hs
  | breakSignal i => injection h with h; exact h ▸ k.takeBreak s i hs
  | frontEndReadyOn i => injection h with h; exact h ▸ k.readyOn s i hs
  | frontEndReadyOff i => injection h with h; exact h ▸ k.readyOff s i hs
  | transmitByteSent i => injection h with h; exact h ▸ k.byteSent s i hs
  | setterTurn => injection h with h; exact h ▸ k.turn s hs
  | unitAck => injection h with h; exact h ▸ k.ackUnit s hs
  | unitFault q => injection h with h; exact h ▸ k.conclude s _ hs
  | recordTimeout => injection h with h; exact h ▸ k.conclude s _ hs
  | unitAnswerInvalid w => injection h with h; exact h ▸ k.answerWord hs w
  | unitReadyOn => injection h with h; exact h ▸ k.readyOnUnit s hs
  | unitReadyOff => injection h with h; exact h ▸ k.readyOffUnit s hs
  | outlineFetchDone => injection h with h; exact h ▸ k.fetchDone s hs

/-- A predicate that every event keeps is an invariant of the step. -/
theorem KeptByEvents.step (k : KeptByEvents P) {s t : State} (hs : P s) (h : step s = .next t) : P t := by
  unfold Machine.step at h
  split at h
  · injection h with h
    exact h ▸ hs
  · exact k.exec _ (k.queue s _ hs) h

end

/-! ## What the operations of the Font Directory leave alone -/

theorem State.withdraw_eq (s : State) (i : Fin 8) :
    s.withdraw i = { s with slots := (s.withdraw i).slots
                            imaging := { s.imaging with mirror := (s.withdraw i).imaging.mirror } } := by
  unfold State.withdraw
  split <;> rfl

theorem State.failCopy_eq (s : State) (i : Fin 8) (r : InstallReason) :
    s.failCopy i r = { s with slots := clearSlot s.slots i, copy := none
                              imaging := { s.imaging with mirror := dropSlotEntries s.imaging.mirror i }
                              attention := { s.attention with installFailed := some r } } := rfl

theorem State.startCopy_eq (s : State) (i : Fin 8) (bank offset : Nat) :
    s.startCopy i bank offset =
      { s with slots := (s.startCopy i bank offset).slots, copy := (s.startCopy i bank offset).copy
               attention := { s.attention with installFailed := (s.startCopy i bank offset).attention.installFailed }
               imaging := { s.imaging with mirror := (s.startCopy i bank offset).imaging.mirror } } := by
  unfold State.startCopy
  dsimp only
  split
  · rfl
  · split <;> rfl

theorem State.completeCopy_eq (s : State) (i : Fin 8) :
    s.completeCopy i =
      { s with slots := (s.completeCopy i).slots, copy := none
               attention := { s.attention with installDone := some i }
               imaging := { s.imaging with mirror := (s.completeCopy i).imaging.mirror } } := by
  unfold State.completeCopy
  dsimp only
  split
  · rfl
  · rw [State.withdraw_eq]

theorem State.takeHeader_eq (s : State) (job : CopyJob) :
    s.takeHeader job =
      { s with slots := (s.takeHeader job).slots, copy := (s.takeHeader job).copy
               attention := { s.attention with installFailed := (s.takeHeader job).attention.installFailed }
               imaging := { s.imaging with mirror := (s.takeHeader job).imaging.mirror } } := by
  unfold State.takeHeader
  dsimp only
  repeat' split
  all_goals rfl

/-- The n-th word of the image that a slot names in bank b, as the install copy reads it (R6, R148, log 9). -/
def State.imageWord (s : State) (slot : Slot) (b : Fin 8) (n : Nat) : Word :=
  if slot.offset + n < Config.bankWords then trueRead s.banks[b] (slot.offset + n) else Config.wordPastBank (s.free + n)

/-- The copy's job with the next header word read (R6). -/
def State.headerRead (s : State) (job : CopyJob) (b : Fin 8) : CopyJob :=
  { job with header := job.header ++ [s.imageWord s.slots[job.slot] b job.header.length] }

section
variable {s : State} {job : CopyJob} {b : Fin 8}

theorem State.copyRead_of_no_bank (hb : bankNumber s.slots[job.slot].bank = none) :
    s.copyRead job = s.failCopy job.slot .outOfBank := by
  unfold State.copyRead
  simp only [hb]

theorem State.copyRead_of_header (hb : bankNumber s.slots[job.slot].bank = some b) (hl : job.header.length < 8) :
    s.copyRead job = { s with free := s.free + 9, copy := some (s.headerRead job b) } := by
  have h9 : job.header.length < 9 := by omega
  unfold State.copyRead State.headerRead State.imageWord
  simp [-Fin.getElem_fin, hb, h9, hl]

theorem State.copyRead_of_last_header (hb : bankNumber s.slots[job.slot].bank = some b) (hl : job.header.length = 8) :
    s.copyRead job = ({ s with free := s.free + 9 } : State).takeHeader (s.headerRead job b) := by
  unfold State.copyRead State.headerRead State.imageWord
  simp [-Fin.getElem_fin, hb, hl]

theorem State.copyRead_of_bad_entry {r : InstallReason} (hb : bankNumber s.slots[job.slot].bank = some b)
    (hl : 9 ≤ job.header.length)
    (he : addTableEntry job.header s.slots[job.slot] (s.imageWord s.slots[job.slot] b) = .error r) :
    s.copyRead job = s.failCopy job.slot r := by
  have h9 : ¬ job.header.length < 9 := by omega
  unfold State.imageWord at he
  unfold State.copyRead
  simp only [hb, h9, if_false, he]

theorem State.copyRead_of_entry {x : Slot} (hb : bankNumber s.slots[job.slot].bank = some b)
    (hl : 9 ≤ job.header.length)
    (he : addTableEntry job.header s.slots[job.slot] (s.imageWord s.slots[job.slot] b) = .ok x) :
    s.copyRead job =
      if imageComplete job.header x then ({ s with slots := s.slots.set job.slot x } : State).completeCopy job.slot
      else { s with slots := s.slots.set job.slot x } := by
  have h9 : ¬ job.header.length < 9 := by omega
  unfold State.imageWord at he
  unfold State.copyRead
  simp only [hb, h9, if_false, he]

/-- The five outcomes of a read of the install copy. -/
theorem State.copyRead_cases (s : State) (job : CopyJob) :
    (∃ r, s.copyRead job = s.failCopy job.slot r) ∨
    (∃ b, s.copyRead job = { s with free := s.free + 9, copy := some (s.headerRead job b) }) ∨
    (∃ b, s.copyRead job = ({ s with free := s.free + 9 } : State).takeHeader (s.headerRead job b)) ∨
    (∃ b x, addTableEntry job.header s.slots[job.slot] (s.imageWord s.slots[job.slot] b) = .ok x ∧
      (s.copyRead job = ({ s with slots := s.slots.set job.slot x } : State).completeCopy job.slot ∨
        s.copyRead job = { s with slots := s.slots.set job.slot x })) := by
  cases hb : bankNumber s.slots[job.slot].bank with
  | none => exact .inl ⟨_, State.copyRead_of_no_bank hb⟩
  | some b =>
    rcases Nat.lt_trichotomy job.header.length 8 with hl | hl | hl
    · exact .inr (.inl ⟨b, State.copyRead_of_header hb hl⟩)
    · exact .inr (.inr (.inl ⟨b, State.copyRead_of_last_header hb hl⟩))
    · cases he : addTableEntry job.header s.slots[job.slot] (s.imageWord s.slots[job.slot] b) with
      | error r => exact .inl ⟨r, State.copyRead_of_bad_entry hb hl he⟩
      | ok x =>
        refine .inr (.inr (.inr ⟨b, x, he, ?_⟩))
        rw [State.copyRead_of_entry hb hl he]
        split
        · exact .inl rfl
        · exact .inr rfl

end

/-- A read of the install copy changes the directory, the causes INSTALL DONE and INSTALL FAILED and the mirror alone; the
causes are set and never cleared. -/
theorem State.copyRead_eq (s : State) (job : CopyJob) :
    s.copyRead job =
      { s with slots := (s.copyRead job).slots, copy := (s.copyRead job).copy, free := (s.copyRead job).free
               attention := { s.attention with
                 installDone := (s.copyRead job).attention.installDone
                 installFailed := (s.copyRead job).attention.installFailed }
               imaging := { s.imaging with mirror := (s.copyRead job).imaging.mirror } } := by
  rcases s.copyRead_cases job with ⟨r, h⟩ | ⟨b, h⟩ | ⟨b, h⟩ | ⟨b, x, -, h | h⟩
  · rw [h]; rfl
  · rw [h]
  · rw [h, State.takeHeader_eq]
  · rw [h, State.completeCopy_eq]
  · rw [h]

theorem State.loseSlot_eq (s : State) (p i : Fin 8) :
    s.loseSlot p i =
      { s with slots := (s.loseSlot p i).slots, copy := (s.loseSlot p i).copy
               attention := { s.attention with installFailed := (s.loseSlot p i).attention.installFailed }
               imaging := { s.imaging with mirror := (s.loseSlot p i).imaging.mirror } } := by
  unfold State.loseSlot
  dsimp only
  repeat' split
  · rfl
  · rfl
  · rfl
  · rw [State.withdraw_eq]
  · rfl

theorem State.loseSlots_eq (s : State) (p : Fin 8) (l : List (Fin 8)) :
    s.loseSlots p l =
      { s with slots := (s.loseSlots p l).slots, copy := (s.loseSlots p l).copy
               attention := { s.attention with installFailed := (s.loseSlots p l).attention.installFailed }
               imaging := { s.imaging with mirror := (s.loseSlots p l).imaging.mirror } } := by
  induction l generalizing s with
  | nil => rfl
  | cons i l ih => rw [State.loseSlots, ih, State.loseSlot_eq]

theorem State.countDown_eq (s : State) (i : Fin 8) :
    s.countDown i = { s with slots := (s.countDown i).slots
                             imaging := { s.imaging with mirror := (s.countDown i).imaging.mirror } } := by
  unfold State.countDown
  dsimp only
  split <;> rfl

theorem State.countDownAll_eq (s : State) (l : List (Fin 8)) :
    s.countDownAll l = { s with slots := (s.countDownAll l).slots
                                imaging := { s.imaging with mirror := (s.countDownAll l).imaging.mirror } } := by
  induction l generalizing s with
  | nil => rfl
  | cons i l ih => rw [State.countDownAll, ih, State.countDown_eq]

theorem State.freeRecord_eq (s : State) (g : Fin 32) :
    s.freeRecord g = { s with slots := (s.freeRecord g).slots, table := (s.freeRecord g).table
                              imaging := { s.imaging with mirror := (s.freeRecord g).imaging.mirror } } := by
  unfold State.freeRecord
  split
  · rfl
  · rw [State.countDownAll_eq]

theorem State.completeReply_eq (s : State) (i : Fin 4) :
    s.completeReply i =
      { s with slots := (s.completeReply i).slots, table := (s.completeReply i).table, links := (s.completeReply i).links
               imaging := { s.imaging with mirror := (s.completeReply i).imaging.mirror } } := by
  unfold State.completeReply
  dsimp only
  split
  · rfl
  · rfl
  · rfl
  · rw [State.freeRecord_eq]
    rfl

/-! ## What the events of the font store leave alone -/

theorem State.storePart_eq (s : State) (p : Fin 8) (o : Nat) (ws : List Word) :
    s.storePart p o ws = { s with banks := (s.storePart p o ws).banks, free := s.free + 1 } := by
  unfold State.storePart
  dsimp only
  split <;> rfl

theorem State.powerCutStore_eq (s : State) :
    s.powerCutStore = { s with banks := s.powerCutStore.banks, free := s.powerCutStore.free } := by
  unfold State.powerCutStore
  split
  · rw [State.storePart_eq]
  · rfl

theorem State.cutStore_eq (s : State) (p : Fin 8) :
    s.cutStore p = { s with banks := (s.cutStore p).banks, free := (s.cutStore p).free
                            bus := { s.bus with holder := (s.cutStore p).bus.holder }
                            port := { s.port with phase := (s.cutStore p).port.phase } } := by
  unfold State.cutStore
  repeat' split
  · rfl
  · rfl
  · rw [State.storePart_eq]; rfl
  · rfl
  · rfl

theorem State.cutFetch_eq (s : State) (p : Fin 8) :
    s.cutFetch p = { s with table := (s.cutFetch p).table, imaging := (s.cutFetch p).imaging } := by
  unfold State.cutFetch
  repeat' split
  all_goals rfl

/-- A presence change before the reactions of its event (R150). -/
def State.presenceChanged (s : State) (p : Fin 8) (k : Socket) (m : Option (List (Nat × Word))) : State :=
  ((((s.cutStore p).senseSocket p k m).noteChange p).loseSlots p slotIds).cutFetch p

theorem State.changePresence_of_change {s : State} {p : Fin 8} {k : Socket} {m : Option (List (Nat × Word))}
    (h : socketChanges s.banks[p] k m = true) : s.changePresence p k m = (s.presenceChanged p k m).settle := if_pos h

theorem State.changePresence_of_none {s : State} {p : Fin 8} {k : Socket} {m : Option (List (Nat × Word))}
    (h : socketChanges s.banks[p] k m = false) : s.changePresence p k m = s :=
  if_neg (Bool.eq_false_iff.1 h)

/-! ## A command that acts -/

/-- A command that only answers: a response, and at most a class list, a receiver or acknowledged causes changed. -/
structure Answered (s t : State) : Prop where
  rest : t = { s with classes := t.classes, links := t.links, attention := t.attention, port := t.port }
  port : ∃ r, t.port = { s.port with phase := .responding r }
  link : ∀ i : Fin 4, t.links[i] = { s.links[i] with rx := t.links[i].rx }

theorem Answered.respond (s : State) (r : List Word) : Answered s (s.respond r) := ⟨rfl, ⟨r, rfl⟩, fun _ => rfl⟩

/-- A command that acts before the reactions of its event: the port is busy, a store command lies within its bank, and bank
contents, class list and the outside lines stay. -/
structure Acted (s u : State) : Prop where
  rest : u = { s with slots := u.slots, copy := u.copy, table := u.table, links := u.links, rotation := u.rotation
                      bus := { s.bus with holder := u.bus.holder, last := u.bus.last }, attention := u.attention
                      imaging := u.imaging, port := { s.port with phase := u.port.phase } }
  busy : u.port.phase.busy
  write : writeInBank u.port.phase
  ready : u.imaging.ready = s.imaging.ready

theorem Acted.respond {s u : State} (r : List Word)
    (rest : u = { s with slots := u.slots, copy := u.copy, table := u.table, links := u.links, rotation := u.rotation
                         bus := { s.bus with holder := u.bus.holder, last := u.bus.last }, attention := u.attention
                         imaging := u.imaging })
    (ready : u.imaging.ready = s.imaging.ready) : Acted s (u.respond r) := by
  refine ⟨?_, by simp, trivial, ready⟩
  rw [rest]
  rfl

@[simp] theorem Imaging.afterLibraryReset_ready (m : Imaging) : m.afterLibraryReset.ready = m.ready := by
  unfold Imaging.afterLibraryReset
  dsimp only
  repeat' split
  all_goals rfl

/-- An acting command answers at once or completes its event with the reactions. -/
theorem act_cases (c : LibCommand) (s : State) : Answered s (act c s) ∨ ∃ u : State, act c s = u.settle ∧ Acted s u := by
  have stored (op : StoreOp) (h : writeInBank (.acting op)) : ∃ u : State, (s.startStore op).settle = u.settle ∧ Acted s u :=
    ⟨s.startStore op, rfl, rfl, by simp, h, rfl⟩
  have settled (u : State) (r : List Word) (h : Acted s (u.respond r)) :
      ∃ v : State, (u.respond r).settle = v.settle ∧ Acted s v := ⟨_, rfl, h⟩
  cases c with
  | installFont b o =>
    simp only [act, actInstallFont]
    repeat' split
    · exact .inl (.respond s _)
    · exact .inl (.respond s _)
    · exact .inr (settled _ _ (.respond _ (by rw [State.startCopy_eq]) (by rw [State.startCopy_eq])))
  | retireFont n =>
    simp only [act, actRetireFont]
    split
    · exact .inl (.respond s _)
    · exact .inr (settled _ _ (.respond _ (by rw [State.withdraw_eq]) (by rw [State.withdraw_eq])))
  | readStore b o n =>
    simp only [act, actReadStore]
    repeat' split
    · exact .inl (.respond s _)
    · exact .inr (stored _ trivial)
    · exact .inl (.respond s _)
  | writeStore b o n ws =>
    simp only [act, actWriteStore]
    repeat' split
    · exact .inl (.respond s _)
    · next hb =>
      refine .inr (stored _ ?_)
      show o.toNat + (ws.take n.toNat).length ≤ Config.bankWords
      rw [List.length_take]
      omega
    · exact .inl (.respond s _)
  | loadClassList n es =>
    simp only [act, actLoadClassList]
    repeat' split
    · exact .inl (.respond s _)
    · exact .inl (.respond s _)
    · exact .inl ⟨rfl, ⟨_, rfl⟩, fun _ => rfl⟩
  | setLink l r e k =>
    simp only [act, actSetLink]
    repeat' split
    · next i r hi hr _ =>
      refine .inl ⟨rfl, ⟨_, rfl⟩, fun j => ?_⟩
      by_cases h : i = j
      · subst h; simp [modifyAt]
      · simp only [State.respond_links, modifyAt_other _ h]
    · exact .inl (.respond s _)
    · exact .inl (.respond s _)
  | killGalley n =>
    simp only [act, actKillGalley]
    split
    · exact .inl (.respond s _)
    · exact .inr (settled _ _ (.respond _ rfl rfl))
  | resumeGalley n =>
    simp only [act, actResumeGalley]
    repeat' split
    · exact .inl (.respond s _)
    · exact .inr (settled _ _ (.respond _ rfl rfl))
    · exact .inl (.respond s _)
  | setClass n c =>
    simp only [act, actSetClass]
    split
    · exact .inl (.respond s _)
    · exact .inr (settled _ _ (.respond _ rfl rfl))
  | clearUnit =>
    simp only [act, actClearUnit]
    split
    · exact .inr (settled _ _ (.respond _ rfl (by dsimp only; split <;> rfl)))
    · exact .inl (.respond s _)
  | readStatus n => exact .inl (.respond s _)
  | acknowledgeAttention n => exact .inl ⟨rfl, ⟨_, rfl⟩, fun _ => rfl⟩
  | libraryReset => exact .inr (settled _ _ (.respond _ rfl (Imaging.afterLibraryReset_ready _)))
  | badCommand w => exact .inl (.respond s _)

end Sys2Proof.Machine

/-! The font store's contents (R147, R156), the bus (R151) and the work of an event done in it (R119, R143, R154, R165), kept by
every step. -/

namespace Sys2Proof.Machine

/-! ## The canonical form of the store's contents (log 2) -/

theorem StoreCanonical.congr {s t : State} (h : StoreCanonical s) (banks : t.banks = s.banks)
    (write : writeInBank t.port.phase) : StoreCanonical t := ⟨banks ▸ h.contents, write⟩

theorem StoreCanonical.settle {s : State} (h : StoreCanonical s) : StoreCanonical s.settle :=
  h.congr s.settle_banks (s.settle_port ▸ h.write)

/-- A position whose sockets hold canonical contents. -/
def BankPosition.canonical (p : BankPosition) : Prop := contentsCanonical p.board ∧ contentsCanonical p.cartridge

theorem storeWords_canonical {p : BankPosition} {a : Nat} {ws : List Word} (h : p.canonical)
    (inBank : a + ws.length ≤ Config.bankWords) : (storeWords p a ws).canonical := by
  unfold storeWords
  split
  · next m _ board =>
    have wf : Memory.wf m := by have := h.1; rwa [board] at this
    exact ⟨writeWords_wf wf inBank, h.2⟩
  · exact h

theorem setSocket_canonical {p : BankPosition} (h : p.canonical) (k : Socket) (cells : Option (List (Nat × Word))) :
    (sensePosition (p.setSocket k (cells.map memoryOf))).canonical := by
  have inserted : contentsCanonical (cells.map memoryOf) := by
    cases cells with
    | none => trivial
    | some c => exact memoryOf_wf c
  cases k with
  | board => exact ⟨inserted, h.2⟩
  | cartridge => exact ⟨h.1, inserted⟩

theorem modifyAt_forall {α : Type} {n : Nat} {Q : α → Prop} {v : Vector α n} (h : ∀ i : Fin n, Q v[i]) {i : Fin n}
    {f : α → α} (hf : Q v[i] → Q (f v[i])) (j : Fin n) : Q (modifyAt v i f)[j] := by
  by_cases e : i = j
  · subst e
    rw [modifyAt_same]
    exact hf (h i)
  · rw [modifyAt_other v e]
    exact h j

theorem StoreCanonical.storeAt {s : State} (h : StoreCanonical s) (p : Fin 8) {a : Nat} {ws : List Word}
    (inBank : a + ws.length ≤ Config.bankWords) : StoreCanonical (s.storeAt p a ws) :=
  ⟨fun q => modifyAt_forall (Q := BankPosition.canonical) h.contents (fun c => storeWords_canonical c inBank) q, h.write⟩

theorem StoreCanonical.storePart {s : State} (h : StoreCanonical s) (p : Fin 8) {o : Nat} {ws : List Word}
    (inBank : o + ws.length ≤ Config.bankWords) : StoreCanonical (s.storePart p o ws) := by
  have part : o + (ws.take (min (Config.wordsMoved s.free) (ws.length - 1))).length ≤ Config.bankWords := by
    simp only [List.length_take]
    omega
  unfold State.storePart
  dsimp only
  split
  · exact (h.storeAt p part).congr rfl h.write
  · exact h.congr rfl h.write

theorem StoreCanonical.write_inBank {s : State} (h : StoreCanonical s) {p : Fin 8} {o : Nat} {ws : List Word}
    (hp : s.port.phase = .acting (.write p o ws)) : o + ws.length ≤ Config.bankWords := by
  have := h.write
  rwa [hp] at this

/-- A phase in which no WRITE STORE waits for the bus or holds it. -/
theorem writeInBank_of_not_write {ph : PortPhase} (h : ∀ p o ws, ph ≠ .acting (.write p o ws)) : writeInBank ph := by
  unfold writeInBank
  split
  · exact absurd rfl (h _ _ _)
  · trivial

theorem StoreCanonical.cutStore {s : State} (h : StoreCanonical s) (p : Fin 8) : StoreCanonical (s.cutStore p) := by
  have answered (u : State) (r : List Word) (hu : StoreCanonical u) : StoreCanonical (u.endUnit.respond r) :=
    hu.congr rfl trivial
  unfold State.cutStore
  repeat' split
  · exact answered s _ h
  · exact h
  · next hp _ _ => exact answered _ _ (h.storePart _ (h.write_inBank hp))
  · exact h
  · exact h

theorem StoreCanonical.powerCutStore {s : State} (h : StoreCanonical s) : StoreCanonical s.powerCutStore := by
  unfold State.powerCutStore
  split
  · next hp _ => exact h.storePart _ (h.write_inBank hp)
  · exact h

theorem StoreCanonical.powerOn {s : State} (h : StoreCanonical s) : StoreCanonical s.powerOn := by
  refine StoreCanonical.settle ⟨fun p => ?_, trivial⟩
  have := h.powerCutStore.contents p
  simpa [sensePosition] using this

theorem StoreCanonical.presenceChanged {s : State} (h : StoreCanonical s) (p : Fin 8) (k : Socket)
    (m : Option (List (Nat × Word))) : StoreCanonical (s.presenceChanged p k m) := by
  have sensed : StoreCanonical (((s.cutStore p).senseSocket p k m).noteChange p) :=
    ⟨fun q => modifyAt_forall (Q := BankPosition.canonical) (h.cutStore p).contents
      (fun c => setSocket_canonical c k m) q, (h.cutStore p).write⟩
  unfold State.presenceChanged
  rw [State.cutFetch_eq, State.loseSlots_eq]
  exact sensed.congr rfl sensed.write

theorem StoreCanonical.act {s : State} (h : StoreCanonical s) (c : LibCommand) : StoreCanonical (act c s) := by
  rcases act_cases c s with a | ⟨u, hu, a⟩
  · obtain ⟨r, hr⟩ := a.port
    exact h.congr (by rw [a.rest]) (by rw [hr]; trivial)
  · rw [hu]
    exact (h.congr (by rw [a.rest]) a.write).settle

/-- An event that leaves the banks and the port alone. -/
theorem StoreCanonical.frame {s t : State} (h : StoreCanonical s) (banks : t.banks = s.banks) (port : t.port = s.port) :
    StoreCanonical t := h.congr banks (port ▸ h.write)

theorem storeCanonical_kept : KeptByEvents StoreCanonical where
  queue _ _ h := h.frame rfl rfl
  powerOn _ h := h.powerOn
  gather _ _ _ h := h.congr rfl trivial
  keepOffered _ _ _ h := h.congr rfl h.write
  portReady _ _ h := h.congr rfl trivial
  act c _ _ h := h.act c
  readDone s h := by
    unfold State.readDone
    split
    · exact (h.congr (t := s.endUnit.respond _) rfl trivial).settle
    · exact h
  writeDone s h := by
    unfold State.writeDone
    split
    · next hp _ =>
      split
      · exact (h.congr (t := s.endUnit.respond _) rfl trivial).settle
      · exact ((h.storeAt _ (h.write_inBank hp)).congr (t := (State.endUnit _).respond _) rfl trivial).settle
    · exact h
  copyStep s h := by
    unfold State.copyStep
    repeat' split
    · exact h
    · refine StoreCanonical.settle (h.frame ?_ ?_) <;> rw [State.copyRead_eq] <;> rfl
    · exact h
  hold s b h := (h.frame (t := s.setHoldRequest b) rfl rfl).settle
  stationReads _ _ _ h := by
    unfold State.stationReads
    split
    · exact h.frame rfl rfl
    · exact h
  stationWrites _ p o w ho h := by
    unfold State.stationWrites
    repeat' split
    · exact h.frame rfl rfl
    · exact h.storeAt p ho
    · exact h
  presence s p k m h := by
    unfold State.changePresence
    split
    · exact (h.presenceChanged p k m).settle
    · exact h
  receiveByte _ _ _ _ _ h := h.frame rfl rfl
  returnToMark _ _ h := h.frame rfl rfl
  takeBreak s _ h := by
    unfold State.takeBreak
    split
    · exact (h.frame (t := s.putBench _) rfl rfl).settle
    · exact h
  readyOn s _ h := (h.frame (t := s.onLink _ _) rfl rfl).settle
  readyOff _ _ h := h.frame rfl rfl
  byteSent s i h := by
    unfold State.byteSent
    repeat' split
    · exact h
    · exact h.frame rfl rfl
    · refine StoreCanonical.settle (h.frame ?_ ?_) <;> rw [State.completeReply_eq]
  turn s h := by
    unfold State.turn
    split
    · exact h
    · exact StoreCanonical.settle (h.frame rfl rfl)
  ackUnit s h := by
    unfold State.ackUnit
    repeat' split
    · exact h
    · exact (h.frame (t := s.onImaging _) rfl rfl).settle
    · exact (h.frame (t := s.putFilm _) rfl rfl).settle
    · exact h
  conclude s k h := by
    unfold State.concludeRecord
    repeat' split
    · exact h
    · exact (h.frame (t := s.onImaging _) rfl rfl).settle
    · exact (h.frame (t := s.faultUnit k) rfl rfl).settle
  readyOnUnit s h := by
    unfold State.readyOnUnit
    repeat' split
    · exact h
    · exact (h.frame (t := s.onImaging _) rfl rfl).settle
    · exact h.frame rfl rfl
  readyOffUnit s h := by
    unfold State.readyOffUnit
    dsimp only
    repeat' split
    · exact h.frame rfl rfl
    · exact StoreCanonical.settle (h.frame rfl rfl)
    · exact StoreCanonical.settle (h.frame rfl rfl)
    · exact h
  fetchDone s h := by
    unfold State.fetchDone
    repeat' split
    · exact h
    · exact StoreCanonical.settle (h.frame rfl rfl)
    · exact h

/-- Settles O53, event by event: only stores, presence changes and a WRITE STORE's checks touch the canonical form. -/
theorem stepKeepsStoreCanonical : Obligations.StepKeepsStoreCanonical := by
  unfold Obligations.StepKeepsStoreCanonical
  exact fun _ _ => storeCanonical_kept.step

/-! ## The bus (R151, R152) -/

/-- A state whose bus and whose users' work are those of another, or whose event the reactions have completed. -/
theorem BusSound.answered {s t : State} (h : BusSound s) (takes : s.port.phase.takes) (a : Answered s t) : BusSound t := by
  obtain ⟨r, hr⟩ := a.port
  have wants : ∀ u, t.wantsBus u = s.wantsBus u := by
    intro u
    rw [a.rest]
    rcases takes with e | ⟨ws, e⟩ <;> cases u <;> simp [State.wantsBus, hr, e]
  have bus : t.bus = s.bus := by rw [a.rest]
  exact ⟨fun u hu => by rw [wants]; exact h.holder u (bus ▸ hu), fun hn u => by rw [wants]; exact h.free (bus ▸ hn) u⟩

/-- A change of phase in which no store command waits, before or after. -/
theorem BusSound.phase {s t : State} (h : BusSound s) (bus : t.bus = s.bus) (copy : t.copy = s.copy)
    (fetch : t.imaging.fetch = s.imaging.fetch) (now : t.wantsBus .store = false) (before : s.wantsBus .store = false) :
    BusSound t := by
  have wants : ∀ u, t.wantsBus u = s.wantsBus u := by
    intro u
    cases u with
    | copy => simp only [State.wantsBus, copy]
    | fetcher => simp only [State.wantsBus, fetch]
    | store => rw [now, before]
    | hold => simp only [State.wantsBus, bus]
  exact ⟨fun u hu => by rw [wants]; exact h.holder u (bus ▸ hu), fun hn u => by rw [wants]; exact h.free (bus ▸ hn) u⟩

theorem State.wantsBus_store_of_takes {s : State} (h : s.port.phase.takes) : s.wantsBus .store = false := by
  rcases h with h | ⟨_, h⟩ <;> simp only [State.wantsBus, h]

theorem busSound_kept : KeptByEvents BusSound where
  queue _ _ h := h.congr rfl rfl rfl rfl
  powerOn _ _ := State.settle_busSound _
  gather _ _ takes h := h.phase rfl rfl rfl rfl (State.wantsBus_store_of_takes takes)
  keepOffered _ _ _ h := h.congr rfl rfl rfl rfl
  portReady s r h := h.phase rfl rfl rfl rfl (by obtain ⟨_, r⟩ := r; simp only [State.wantsBus, r])
  act c s takes h := by
    rcases act_cases c s with a | ⟨u, hu, -⟩
    · exact h.answered takes a
    · exact hu ▸ u.settle_busSound
  readDone s h := by
    unfold State.readDone
    split
    · exact State.settle_busSound _
    · exact h
  writeDone s h := by
    unfold State.writeDone
    repeat' split
    · exact State.settle_busSound _
    · exact State.settle_busSound _
    · exact h
  copyStep s h := by
    unfold State.copyStep
    repeat' split
    · exact h
    · exact State.settle_busSound _
    · exact h
  hold _ _ _ := State.settle_busSound _
  stationReads _ _ _ h := by
    unfold State.stationReads
    split
    · exact h.congr rfl rfl rfl rfl
    · exact h
  stationWrites _ _ _ _ _ h := by
    unfold State.stationWrites
    repeat' split
    · exact h.congr rfl rfl rfl rfl
    · exact h.congr rfl rfl rfl rfl
    · exact h
  presence s p k m h := by
    unfold State.changePresence
    split
    · exact State.settle_busSound _
    · exact h
  receiveByte _ _ _ _ _ h := h.congr rfl rfl rfl rfl
  returnToMark _ _ h := h.congr rfl rfl rfl rfl
  takeBreak s _ h := by
    unfold State.takeBreak
    split
    · exact State.settle_busSound _
    · exact h
  readyOn _ _ _ := State.settle_busSound _
  readyOff _ _ h := h.congr rfl rfl rfl rfl
  byteSent s i h := by
    unfold State.byteSent
    repeat' split
    · exact h
    · exact h.congr rfl rfl rfl rfl
    · exact State.settle_busSound _
  turn s h := by
    unfold State.turn
    split
    · exact h
    · exact State.settle_busSound _
  ackUnit s h := by
    unfold State.ackUnit
    repeat' split
    · exact h
    · exact State.settle_busSound _
    · exact State.settle_busSound _
    · exact h
  conclude s k h := by
    unfold State.concludeRecord
    repeat' split
    · exact h
    · exact State.settle_busSound _
    · exact State.settle_busSound _
  readyOnUnit s h := by
    unfold State.readyOnUnit
    repeat' split
    · exact h
    · exact State.settle_busSound _
    · exact h.congr rfl rfl rfl rfl
  readyOffUnit s h := by
    unfold State.readyOffUnit
    dsimp only
    repeat' split
    · exact h.congr rfl rfl rfl rfl
    · exact State.settle_busSound _
    · exact State.settle_busSound _
    · exact h
  fetchDone s h := by
    unfold State.fetchDone
    repeat' split
    · exact h
    · exact State.settle_busSound _
    · exact h

/-- Settles O55: the reactions give the bus by R151, and an event without them changes neither the bus nor a user's work. -/
theorem stepKeepsBusSound : Obligations.StepKeepsBusSound := by
  unfold Obligations.StepKeepsBusSound
  exact fun _ _ => busSound_kept.step

end Sys2Proof.Machine

/-! The reactions of an event stage by stage (log 7): the walk woken, the selection round, the replies taken; and that they leave
no work of the event undone (R119, R143, R165). -/

namespace Sys2Proof.Machine

/-! ## A galley record changed -/

section
variable {t : GalleyTable} {g h : Fin 32} {r : Galley}

theorem GalleyTable.modify_of_none (hn : t.records[g] = none) (f : Galley → Galley) : t.modify g f = t := by
  unfold GalleyTable.modify
  rw [hn]

theorem GalleyTable.modify_of_some (hr : t.records[g] = some r) (f : Galley → Galley) :
    t.modify g f = { t with records := t.records.set g (some (f r)) } := by
  unfold GalleyTable.modify
  rw [hr]

theorem GalleyTable.modify_eq (t : GalleyTable) (g : Fin 32) (f : Galley → Galley) :
    t.modify g f = { t with records := (t.modify g f).records } := by
  unfold GalleyTable.modify
  split <;> rfl

end

@[simp] theorem set_same {α : Type} {n : Nat} (v : Vector α n) (i : Fin n) (x : α) : (v.set i x)[i] = x := by simp

/-! ## Report marks taken by replies (R127, R143) -/

/-- The second table is the first but for report-pending marks and the stall flag. -/
structure MarksTaken (t t' : GalleyTable) : Prop where
  order : t'.order = t.order
  eligible : t'.eligible = t.eligible
  freeLines : t'.freeLines = t.freeLines
  record : ∀ (g : Fin 32) (r : Galley), t.records[g] = some r → ∃ m, t'.records[g] = some { r with mark := m }
  free : ∀ g : Fin 32, t.records[g] = none → t'.records[g] = none

theorem MarksTaken.refl (t : GalleyTable) : MarksTaken t t := ⟨rfl, rfl, rfl, fun _ r h => ⟨r.mark, h⟩, fun _ h => h⟩

theorem MarksTaken.trans {t u v : GalleyTable} (a : MarksTaken t u) (b : MarksTaken u v) : MarksTaken t v := by
  refine ⟨b.order.trans a.order, b.eligible.trans a.eligible, b.freeLines.trans a.freeLines, fun g r hr => ?_,
    fun g h => b.free g (a.free g h)⟩
  obtain ⟨m, hm⟩ := a.record g r hr
  exact b.record g { r with mark := m } hm

/-- A record of the later table is one of the earlier table but for its mark. -/
theorem MarksTaken.back {t t' : GalleyTable} (h : MarksTaken t t') {g : Fin 32} {r' : Galley}
    (hr : t'.records[g] = some r') : ∃ r, t.records[g] = some r ∧ r' = { r with mark := r'.mark } := by
  cases e : t.records[g] with
  | none => rw [h.free g e] at hr; cases hr
  | some r =>
    obtain ⟨m, hm⟩ := h.record g r e
    rw [hr] at hm
    injection hm with hm
    exact ⟨r, rfl, by rw [hm]⟩

theorem MarksTaken.modify (t : GalleyTable) (g : Fin 32) : MarksTaken t (t.modify g fun r => { r with mark := false }) := by
  cases e : t.records[g] with
  | none => rw [GalleyTable.modify_of_none e]; exact .refl t
  | some r =>
    rw [GalleyTable.modify_of_some e]
    refine ⟨rfl, rfl, rfl, fun h q hq => ?_, fun h hn => ?_⟩
    · by_cases eg : g = h
      · subst eg
        rw [e] at hq
        injection hq with hq
        exact ⟨false, by rw [← hq]; exact set_same _ _ _⟩
      · exact ⟨q.mark, (set_other _ eg _).trans hq⟩
    · by_cases eg : g = h
      · subst eg
        rw [e] at hn
        cases hn
      · exact (set_other _ eg _).trans hn

theorem MarksTaken.takeReply (t : GalleyTable) (i : Fin 4) (l : Link) : MarksTaken t (takeReply t i l).1 := by
  unfold Machine.takeReply
  split
  · split
    · exact .refl t
    · split
      · exact .refl t
      · split
        · exact .refl t
        · exact .modify t _
  · exact .refl t

theorem State.replies_marksTaken (s : State) : MarksTaken s.table s.replies.table := by
  have one (u : State) (i : Fin 4) : MarksTaken u.table (u.replyOn i).table := .takeReply u.table i u.links[i]
  exact (((one s 0).trans (one _ 1)).trans (one _ 2)).trans (one _ 3)

/-- The reactions leave the Galley Table as the selection round left it, but for marks and the stall flag. -/
theorem State.settle_marksTaken (s : State) : MarksTaken s.wakeWalk.selectionRound.table s.settle.table := by
  have replied := State.replies_marksTaken s.wakeWalk.selectionRound.giveBus
  rw [show s.wakeWalk.selectionRound.giveBus.table = s.wakeWalk.selectionRound.table by rw [State.giveBus_eq]] at replied
  unfold State.settle
  rw [State.noticeStall_eq]
  exact ⟨replied.order, replied.eligible, replied.freeLines, replied.record, replied.free⟩

theorem State.settle_imaging_eq (s : State) : s.settle.imaging = s.wakeWalk.selectionRound.imaging := by
  rw [State.settle_imaging, State.giveBus_eq]

/-! ## The walk between two lines (R164, R165, R170) -/

theorem Film.betweenLines_eq (f : Film) :
    f.betweenLines = { f with img := { f.img with
      pos := 0, inProgress := f.betweenLines.img.inProgress, unit := f.betweenLines.img.unit
      out := f.betweenLines.img.out } } := by
  unfold Film.betweenLines
  dsimp only
  repeat' split
  all_goals rfl

theorem Film.betweenLines_goesOn {f : Film} {r : Galley} (hr : f.galley = some r) :
    WalkGoesOn f.betweenLines.img r := by
  have atLine : (f.withImg fun m => { m with pos := 0, inProgress := false }).galley = some r := hr
  unfold Film.betweenLines
  dsimp only
  rw [atLine]
  dsimp only
  cases hk : r.killPending with
  | true => exact ⟨fun _ => ⟨rfl, rfl⟩, by simp [hk], by simp [hk], by simp [hk]⟩
  | false =>
    simp only [Bool.false_eq_true, if_false]
    cases hl : r.lines with
    | cons line rest =>
      refine ⟨by simp [hk], fun _ l ls e => ?_, by simp [hl], by simp [hl]⟩
      rw [hl] at e
      injection e with e _
      exact e ▸ ⟨rfl, rfl, rfl, rfl⟩
    | nil =>
      cases he : r.ended with
      | true => exact ⟨by simp [hk], by simp [hl], fun _ _ _ => ⟨rfl, rfl⟩, by simp [he]⟩
      | false => exact ⟨by simp [hk], by simp [hl], by simp [he], fun _ _ _ => ⟨rfl, rfl⟩⟩

/-- A walk that waits for lines after going on has a galley with nothing to send. -/
theorem WalkGoesOn.waiting {m : Imaging} {r : Galley} (h : WalkGoesOn m r) (hw : m.unit = .waitingLines) :
    r.killPending = false ∧ r.lines = [] ∧ r.ended = false := by
  cases hk : r.killPending with
  | true => have := (h.kill hk).1; rw [hw] at this; cases this
  | false =>
    cases hl : r.lines with
    | cons line rest => have := (h.line hk line rest hl).1; rw [hw] at this; cases this
    | nil =>
      cases he : r.ended with
      | true => have := (h.close hk hl he).1; rw [hw] at this; cases this
      | false => exact ⟨rfl, rfl, rfl⟩

theorem State.wakeWalk_of_not_waiting {s : State} (h : s.imaging.unit ≠ .waitingLines) : s.wakeWalk = s := if_neg h

theorem State.wakeWalk_of_waiting {s : State} (h : s.imaging.unit = .waitingLines) :
    s.wakeWalk = s.putFilm s.film.betweenLines := if_pos h

/-- Waking the walk leaves the outside line, the walk's galley, the mirror and a fetch alone. -/
theorem State.wakeWalk_imaging (s : State) :
    s.wakeWalk.imaging = { s.imaging with
      unit := s.wakeWalk.imaging.unit, out := s.wakeWalk.imaging.out, pos := s.wakeWalk.imaging.pos
      inProgress := s.wakeWalk.imaging.inProgress } := by
  by_cases h : s.imaging.unit = .waitingLines
  · rw [State.wakeWalk_of_waiting h, State.putFilm_imaging, Film.betweenLines_eq]
    rfl
  · rw [State.wakeWalk_of_not_waiting h]

/-! ## The selection round (R119, R120) -/

/-- The Exposure Controller with the galley g, of record r, taken up and its GALLEY OPEN sent (R120, R164). -/
def Imaging.opened (m : Imaging) (g : Fin 32) (r : Galley) : Imaging :=
  { m with galley := some g, pos := 0, inProgress := false, unit := .sending
           out := some { record := .galleyOpen r.number r.link r.continuation (r.header.measure * 8), void := false } }

/-- The galley record of a galley chosen for film (R120). -/
def Galley.exposed (r : Galley) : Galley := { r with state := .exposing, selected := true, mark := true }

theorem GalleyTable.select_eq {t : GalleyTable} {g : Fin 32} {r : Galley} (hr : t.records[g] = some r) :
    t.select g = { t with records := t.records.set g (some r.exposed), eligible := t.eligible.filter (· ≠ g) } := by
  unfold GalleyTable.select
  rw [GalleyTable.modify_of_some (t := t.leaveEligible g) hr]
  rfl

theorem Film.open_eq {f : Film} {g : Fin 32} {r : Galley} (hr : f.table.records[g] = some r) :
    f.open g = { f with table := f.table.select g, img := f.img.opened g r } := by
  have selected : (f.table.select g).records[g] = some r.exposed := by
    rw [GalleyTable.select_eq hr]
    exact set_same _ _ _
  unfold Film.open
  dsimp only
  rw [selected]
  rfl

/-- A selection round does nothing, or takes up the galley chosen. -/
theorem State.selectionRound_cases (s : State) :
    (s.selectionRound = s ∧ (s.imaging.unit = .ready → s.imaging.galley = none → s.table.choose = none)) ∨
      ∃ g r, s.imaging.unit = .ready ∧ s.imaging.galley = none ∧ s.table.choose = some g ∧ s.table.records[g] = some r ∧
        s.selectionRound = { s with table := s.table.select g, imaging := s.imaging.opened g r } := by
  unfold State.selectionRound
  by_cases h : s.imaging.unit = .ready ∧ s.imaging.galley = none
  · rw [if_pos h]
    cases hc : s.table.choose with
    | none => exact .inl ⟨rfl, fun _ _ => rfl⟩
    | some g =>
      obtain ⟨r, hr⟩ := Option.isSome_iff_exists.1 (GalleyTable.choose_some hc)
      refine .inr ⟨g, r, h.1, h.2, rfl, hr, ?_⟩
      show s.putFilm (s.film.open g) = _
      rw [Film.open_eq (f := s.film) hr]
      rfl
  · rw [if_neg h]
    exact .inl ⟨rfl, fun a b => absurd ⟨a, b⟩ h⟩

theorem State.selectionRound_of_unit {s : State} (h : s.imaging.unit ≠ .ready) : s.selectionRound = s :=
  if_neg fun e => h e.1

theorem State.selectionRound_of_none {s : State} (h : s.table.choose = none) : s.selectionRound = s := by
  rcases s.selectionRound_cases with ⟨e, -⟩ | ⟨g, r, -, -, hc, -⟩
  · exact e
  · rw [h] at hc
    cases hc

/-- The reactions begin with nothing for the walk to wake from and no galley to choose: the Exposure Controller stays. -/
theorem State.settle_imaging_same {s : State} (hw : s.imaging.unit ≠ .waitingLines) (hr : s.imaging.unit ≠ .ready) :
    s.settle.imaging = s.imaging := by
  rw [State.settle_imaging_eq, State.wakeWalk_of_not_waiting hw, State.selectionRound_of_unit hr]

theorem State.settle_marksTaken_same {s : State} (hr : s.imaging.unit ≠ .waitingLines) (hc : s.imaging.unit ≠ .ready) :
    MarksTaken s.table s.settle.table := by
  have := s.settle_marksTaken
  rwa [State.wakeWalk_of_not_waiting hr, State.selectionRound_of_unit hc] at this

/-- The galley that a selection round chooses does not depend on marks. -/
theorem MarksTaken.choose {t t' : GalleyTable} (h : MarksTaken t t') : t'.choose = t.choose := by
  have better : ∀ (lead : Option (Fin 32)) (g : Fin 32), betterGalley t' lead g = betterGalley t lead g := by
    intro lead g
    unfold betterGalley
    cases hg : t.records[g] with
    | none => rw [h.free g hg]
    | some r =>
      obtain ⟨m, hm⟩ := h.record g r hg
      rw [hm]
      cases lead with
      | none => rfl
      | some l =>
        dsimp only [Option.bind]
        cases hl : t.records[l] with
        | none => rw [h.free l hl]
        | some b =>
          obtain ⟨n, hn⟩ := h.record l b hl
          rw [hn]
  unfold GalleyTable.choose
  rw [h.eligible, show betterGalley t' = betterGalley t from funext fun l => funext fun g => better l g]

/-! ## Nothing left undone -/

theorem State.settle_selection (s : State) (hr : s.settle.imaging.unit = .ready) (hg : s.settle.imaging.galley = none) :
    s.settle.table.choose = none := by
  rw [s.settle_marksTaken.choose]
  rw [State.settle_imaging_eq] at hr hg
  rcases s.wakeWalk.selectionRound_cases with ⟨e, h⟩ | ⟨g, r, -, -, -, -, e⟩
  · rw [e] at hr hg ⊢
    exact h hr hg
  · rw [e] at hr
    cases hr

theorem State.settle_waiting (s : State) (hw : s.settle.imaging.unit = .waitingLines) {r : Galley}
    (hr : s.settle.film.galley = some r) : r.killPending = false ∧ r.lines = [] ∧ r.ended = false := by
  have round : s.wakeWalk.selectionRound = s.wakeWalk := by
    rcases s.wakeWalk.selectionRound_cases with ⟨e, -⟩ | ⟨g, q, -, -, -, -, e⟩
    · exact e
    · rw [State.settle_imaging_eq, e] at hw
      cases hw
  have marks := s.settle_marksTaken
  rw [round] at marks
  rw [State.settle_imaging_eq, round] at hw
  have walk : s.settle.imaging.galley = s.imaging.galley := by
    rw [State.settle_imaging_eq, round, State.wakeWalk_imaging]
  have waited : s.imaging.unit = .waitingLines := by
    by_contra h
    rw [State.wakeWalk_of_not_waiting h] at hw
    exact h hw
  rw [State.wakeWalk_of_waiting waited] at hw
  obtain ⟨g, hg, hrec⟩ := Option.bind_eq_some_iff.1 (show s.settle.imaging.galley.bind _ = some r from hr)
  obtain ⟨q, hq, same⟩ := marks.back hrec
  rw [State.wakeWalk_table] at hq
  have current : s.film.galley = some q := Option.bind_eq_some_iff.2 ⟨g, walk ▸ hg, hq⟩
  obtain ⟨kill, lines, ended⟩ := (Film.betweenLines_goesOn current).waiting hw
  rw [same]
  exact ⟨kill, lines, ended⟩

theorem Transmitter.start_sending (tx : Transmitter) (tag : ReplyTag) (ws : List Word) : (tx.start tag ws).state = .sending := rfl

section
variable {t : GalleyTable} {i : Fin 4} {l : Link}

theorem takeReply_of_busy (h : ¬ (l.tx.state = .idle ∧ l.tx.feReady = true)) : takeReply t i l = (t, l) := if_neg h

theorem takeReply_of_result {m : MeasureResult} (idle : l.tx.state = .idle) (ready : l.tx.feReady = true)
    (hm : l.measure = .waiting m) :
    takeReply t i l = (t, { l with measure := .sending m, tx := l.tx.start .result (resultWords m) }) := by
  unfold takeReply
  rw [if_pos ⟨idle, ready⟩, hm]

theorem takeReply_of_none (noResult : ∀ m, l.measure ≠ .waiting m) (hn : t.marked i = none) :
    takeReply t i l = (t, l) := by
  unfold takeReply
  split
  · split
    · next m e => exact absurd e (noResult m)
    · rw [hn]
  · rfl

theorem takeReply_of_report {g : Fin 32} {r : Galley} (idle : l.tx.state = .idle) (ready : l.tx.feReady = true)
    (noResult : ∀ m, l.measure ≠ .waiting m) (hg : t.marked i = some g) (hr : t.records[g] = some r) :
    takeReply t i l = (t.modify g fun r => { r with mark := false },
      { l with tx := l.tx.start (.report g (decide (r.state = .done))) (reportWords g r) }) := by
  unfold takeReply
  rw [if_pos ⟨idle, ready⟩, hg]
  dsimp only
  rw [hr]
  split
  · next m e => exact absurd e (noResult m)
  · rfl

/-- The four outcomes of asking for a reply: none for a busy transmitter, a result, none to send, a report. -/
theorem takeReply_cases (t : GalleyTable) (i : Fin 4) (l : Link) :
    (takeReply t i l = (t, l) ∧ ¬ (l.tx.state = .idle ∧ l.tx.feReady = true)) ∨
    (∃ m, l.measure = .waiting m ∧
      takeReply t i l = (t, { l with measure := .sending m, tx := l.tx.start .result (resultWords m) })) ∨
    (takeReply t i l = (t, l) ∧ (∀ m, l.measure ≠ .waiting m) ∧ t.marked i = none) ∨
    ∃ g r, t.marked i = some g ∧ t.records[g] = some r ∧ r.link = i ∧ takeReply t i l =
      (t.modify g fun r => { r with mark := false },
        { l with tx := l.tx.start (.report g (decide (r.state = .done))) (reportWords g r) }) := by
  by_cases h : l.tx.state = .idle ∧ l.tx.feReady = true
  · by_cases result : ∃ m, l.measure = .waiting m
    · obtain ⟨m, hm⟩ := result
      exact .inr (.inl ⟨m, hm, takeReply_of_result h.1 h.2 hm⟩)
    · have noResult : ∀ m, l.measure ≠ .waiting m := fun m e => result ⟨m, e⟩
      cases hg : t.marked i with
      | none => exact .inr (.inr (.inl ⟨takeReply_of_none noResult hg, noResult, rfl⟩))
      | some g =>
        obtain ⟨r, hr, hl⟩ := GalleyTable.marked_some hg
        exact .inr (.inr (.inr ⟨g, r, rfl, hr, hl, takeReply_of_report h.1 h.2 noResult hg hr⟩))
  · exact .inl ⟨takeReply_of_busy h, h⟩

/-- A link whose transmitter is idle and whose front end is ready after a reply could be taken had none to take. -/
theorem takeReply_idle (hi : (takeReply t i l).2.tx.state = .idle) (hf : (takeReply t i l).2.tx.feReady = true) :
    takeReply t i l = (t, l) ∧ (∀ m, l.measure ≠ .waiting m) ∧ t.marked i = none := by
  rcases takeReply_cases t i l with ⟨e, busy⟩ | ⟨m, -, e⟩ | none | ⟨g, r, -, -, -, e⟩
  · rw [e] at hi hf
    exact absurd ⟨hi, hf⟩ busy
  · rw [e] at hi
    cases hi
  · exact none
  · rw [e] at hi
    cases hi

end

theorem State.settle_replies (s : State) (i : Fin 4) (hi : s.settle.links[i].tx.state = .idle)
    (hf : s.settle.links[i].tx.feReady = true) :
    (∀ m, s.settle.links[i].measure ≠ .waiting m) ∧ s.settle.table.marked i = none := by
  obtain ⟨t, -, link, after⟩ := s.settle_reply i
  rw [link] at hi hf
  obtain ⟨same, noResult, noReport⟩ := takeReply_idle hi hf
  rw [same] at link after
  refine ⟨fun m => ?_, ?_⟩
  · rw [link]
    exact noResult m
  · rw [← after.marked]
    exact noReport

/-- The reactions of an event leave nothing undone, if the port has none of its own words to take. -/
theorem State.settle_settled {s : State} (offered : s.port.phase.takes → s.port.offered = []) : Settled s.settle where
  selection := s.settle_selection
  waiting hw _ := s.settle_waiting hw
  replies := s.settle_replies
  offered h := by
    rw [State.settle_port] at h ⊢
    exact offered h

theorem State.settle_settled_of_busy {s : State} (busy : s.port.phase.busy) : Settled s.settle :=
  State.settle_settled fun h => absurd h (PortPhase.not_takes_of_busy busy)

/-! ## Events without reactions -/

theorem Settled.frame {s t : State} (h : Settled s) (imaging : t.imaging.unit = s.imaging.unit)
    (galley : t.imaging.galley = s.imaging.galley) (table : t.table = s.table)
    (links : ∀ i : Fin 4, t.links[i].tx.state = .idle → t.links[i].tx.feReady = true →
      s.links[i].tx.state = .idle ∧ s.links[i].tx.feReady = true ∧ t.links[i].measure = s.links[i].measure)
    (offered : t.port.phase.takes → t.port.offered = []) : Settled t where
  selection hu hg := by
    rw [table]
    exact h.selection (imaging ▸ hu) (galley ▸ hg)
  waiting hu r hr := by
    refine h.waiting (imaging ▸ hu) r ?_
    simpa only [State.film, Film.galley, galley, table] using hr
  replies i hi hf := by
    obtain ⟨idle, ready, measure⟩ := links i hi hf
    rw [table, measure]
    exact h.replies i idle ready
  offered := offered

theorem Settled.answered {s t : State} (h : Settled s) (a : Answered s t) : Settled t := by
  obtain ⟨r, hr⟩ := a.port
  refine h.frame (by rw [a.rest]) (by rw [a.rest]) (by rw [a.rest]) (fun i hi hf => ?_) fun takes => ?_
  · rw [a.link i] at hi hf ⊢
    exact ⟨hi, hf, rfl⟩
  · rw [hr] at takes
    exact absurd takes (PortPhase.not_takes_of_busy (by simp))

/-- An event that changes one link alone, and gives its transmitter no reply to take. -/
theorem Settled.onLink {s : State} (h : Settled s) (i : Fin 4) {f : Link → Link}
    (hf : ∀ l : Link, (f l).tx.state = .idle → (f l).tx.feReady = true →
      l.tx.state = .idle ∧ l.tx.feReady = true ∧ (f l).measure = l.measure) : Settled (s.onLink i f) := by
  refine h.frame rfl rfl rfl (fun j hi hr => ?_) h.offered
  by_cases e : i = j
  · subst e
    rw [State.onLink_links, modifyAt_same] at hi hr ⊢
    exact hf _ hi hr
  · rw [State.onLink_links, modifyAt_other _ e] at hi hr ⊢
    exact ⟨hi, hr, rfl⟩

theorem State.settle_settled_of_port {s u : State} (h : Settled s) (port : u.port = s.port) : Settled u.settle :=
  State.settle_settled (port ▸ h.offered)

theorem State.presenceChanged_port (s : State) (p : Fin 8) (k : Socket) (m : Option (List (Nat × Word))) :
    (s.presenceChanged p k m).port = (s.cutStore p).port := by
  unfold State.presenceChanged
  rw [State.cutFetch_eq, State.loseSlots_eq]
  rfl

/-- A store command cut off is answered; any other phase stays (R150). -/
theorem State.cutStore_phase (s : State) (p : Fin 8) :
    (s.cutStore p).port = s.port ∨ (s.cutStore p).port = { s.port with phase := .responding (refusedResponse .bankChanged) } := by
  unfold State.cutStore
  repeat' split
  · exact .inr rfl
  · exact .inl rfl
  · rw [State.storePart_eq]
    exact .inr rfl
  · exact .inl rfl
  · exact .inl rfl

theorem Settled.offered_presenceChanged {s : State} (h : Settled s) (p : Fin 8) (k : Socket)
    (m : Option (List (Nat × Word))) (takes : (s.presenceChanged p k m).port.phase.takes) :
    (s.presenceChanged p k m).port.offered = [] := by
  rw [State.presenceChanged_port] at takes ⊢
  rcases s.cutStore_phase p with e | e
  · rw [e] at takes ⊢
    exact h.offered takes
  · rw [e] at takes
    exact absurd takes (PortPhase.not_takes_of_busy (by simp))

theorem settled_kept : KeptByEvents Settled where
  queue _ _ h := h.frame rfl rfl rfl (fun _ a b => ⟨a, b, rfl⟩) h.offered
  powerOn _ _ := State.settle_settled fun _ => rfl
  gather s _ takes h := h.frame rfl rfl rfl (fun _ a b => ⟨a, b, rfl⟩) fun _ => h.offered takes
  keepOffered _ _ busy h := h.frame rfl rfl rfl (fun _ a b => ⟨a, b, rfl⟩)
    fun takes => absurd takes (PortPhase.not_takes_of_busy busy)
  portReady _ _ h := h.frame rfl rfl rfl (fun _ a b => ⟨a, b, rfl⟩) fun _ => rfl
  act c s _ h := by
    rcases act_cases c s with a | ⟨u, hu, a⟩
    · exact h.answered a
    · exact hu ▸ State.settle_settled_of_busy a.busy
  readDone s h := by
    unfold State.readDone
    split
    · exact State.settle_settled_of_busy (by simp)
    · exact h
  writeDone s h := by
    unfold State.writeDone
    repeat' split
    · exact State.settle_settled_of_busy (by simp)
    · exact State.settle_settled_of_busy (by simp)
    · exact h
  copyStep s h := by
    unfold State.copyStep
    repeat' split
    · exact h
    · exact State.settle_settled_of_port h (by rw [State.copyRead_eq]; rfl)
    · exact h
  hold s b h := State.settle_settled_of_port (u := s.setHoldRequest b) h rfl
  stationReads _ _ _ h := by
    unfold State.stationReads
    split
    · exact h.frame rfl rfl rfl (fun _ a b => ⟨a, b, rfl⟩) h.offered
    · exact h
  stationWrites _ _ _ _ _ h := by
    unfold State.stationWrites
    repeat' split
    · exact h.frame rfl rfl rfl (fun _ a b => ⟨a, b, rfl⟩) h.offered
    · exact h.frame rfl rfl rfl (fun _ a b => ⟨a, b, rfl⟩) h.offered
    · exact h
  presence s p k m h := by
    cases change : socketChanges s.banks[p] k m with
    | true =>
      rw [State.changePresence_of_change change]
      exact State.settle_settled (h.offered_presenceChanged p k m)
    | false =>
      rw [State.changePresence_of_none change]
      exact h
  receiveByte _ i _ _ _ h := h.onLink i fun _ a b => ⟨a, b, rfl⟩
  returnToMark _ i h := h.onLink i fun _ a b => ⟨a, b, rfl⟩
  takeBreak s _ h := by
    unfold State.takeBreak
    split
    · exact State.settle_settled_of_port h rfl
    · exact h
  readyOn s i h := State.settle_settled_of_port (u := s.onLink i _) h rfl
  readyOff _ i h := h.onLink i fun _ _ b => by cases b
  byteSent s i h := by
    unfold State.byteSent
    repeat' split
    · exact h
    · refine h.onLink i fun l a b => ?_
      unfold Transmitter.nextByte at a b ⊢
      split at a
      · next ready => exact ⟨a, ready, rfl⟩
      · cases a
    · exact State.settle_settled_of_port h (by rw [State.completeReply_eq])
  turn s h := by
    unfold State.turn
    split
    · exact h
    · exact State.settle_settled_of_port h rfl
  ackUnit s h := by
    unfold State.ackUnit
    repeat' split
    · exact h
    · exact State.settle_settled_of_port h rfl
    · exact State.settle_settled_of_port h rfl
    · exact h
  conclude s k h := by
    unfold State.concludeRecord
    repeat' split
    · exact h
    · exact State.settle_settled_of_port h rfl
    · exact State.settle_settled_of_port h rfl
  readyOnUnit s h := by
    unfold State.readyOnUnit
    repeat' split
    · exact h
    · exact State.settle_settled_of_port h rfl
    · exact h.frame rfl rfl rfl (fun _ a b => ⟨a, b, rfl⟩) h.offered
  readyOffUnit s h := by
    unfold State.readyOffUnit
    dsimp only
    repeat' split
    · exact h.frame rfl rfl rfl (fun _ a b => ⟨a, b, rfl⟩) h.offered
    · exact State.settle_settled_of_port h rfl
    · exact State.settle_settled_of_port h rfl
    · exact h
  fetchDone s h := by
    unfold State.fetchDone
    repeat' split
    · exact h
    · exact State.settle_settled_of_port h rfl
    · exact h

/-- Settles O56: the reactions leave nothing undone whatever they begin from, and an event without them gives them nothing to
do. -/
theorem stepKeepsSettled : Obligations.StepKeepsSettled := by
  unfold Obligations.StepKeepsSettled
  exact fun _ _ => settled_kept.step

end Sys2Proof.Machine

/-! The slots of shaped words and set lines: a word's elements use no slot but those its glyph resolutions yielded (R66), those
are slots in service (R14, R19), and a line's placed glyphs use no slot but those of its elements (R95, R104, R109). -/

namespace Sys2Proof.Machine

/-! ## The slots that glyph resolutions yield (R14, R19, R64) -/

/-- A slot in service: RESIDENT or RETIRING (R14). -/
def Slot.inService (x : Slot) : Prop := x.state = .resident ∨ x.state = .retiring

theorem resolveResident_inService {slots : Vector Slot 8} {n : Nat} {i : Fin 8} (h : resolveResident slots n = some i) :
    slots[i].inService := by
  unfold resolveResident at h
  split at h
  · have found := List.find?_some h
    simp only [Bool.and_eq_true, decide_eq_true_eq] at found
    exact .inl found.1
  · cases h

theorem resolveFor_inService {slots : Vector Slot 8} {used : List (Fin 8)} {n : Nat} {i : Fin 8}
    (h : resolveFor slots used n = some i) : slots[i].inService := by
  unfold resolveFor at h
  dsimp only at h
  split at h
  · next j held =>
    split at h
    · injection h with h
      subst h
      have found := List.find?_some held
      simp only [Bool.and_eq_true, Bool.or_eq_true, decide_eq_true_eq] at found
      exact found.1
    · cases h
  · exact resolveResident_inService h

section
variable {slots : Vector Slot 8} {resolve : Nat → Option (Fin 8)} {Q : Fin 8 → Prop}

theorem fallbackChain_resolved (resolved : ∀ n i, resolve n = some i → Q i) {code : Word} {form : Form} {hops : Nat}
    {last i : Fin 8} {g : Nat} {own : Bool} (h : fallbackChain slots resolve code form hops last = some (i, g, own)) : Q i := by
  induction hops generalizing last with
  | zero => cases h
  | succ n ih =>
    unfold fallbackChain at h
    split at h
    · cases h
    · split at h
      · cases h
      · next j hj =>
        split at h
        · injection h with h
          injection h with h _
          exact h ▸ resolved _ _ hj
        · exact ih h

/-- A character's glyph stands in a slot that a resolution yielded, or in none. -/
theorem glyphFor_resolved (resolved : ∀ n i, resolve n = some i → Q i) {c : CharEntry} {back forward : Bool} {i : Fin 8}
    (h : (glyphFor slots resolve c back forward).slot = some i) : Q i := by
  unfold glyphFor at h
  split at h
  · cases h
  · split at h
    · cases h
    · next j hj =>
      obtain ⟨n, -, hn⟩ := Option.bind_eq_some_iff.1 hj
      split at h
      · injection h with h
        exact h ▸ resolved _ _ hn
      · split at h
        · next k g own chain =>
          injection h with h
          exact h ▸ fallbackChain_resolved resolved chain
        · injection h with h
          exact h ▸ resolved _ _ hn

theorem glyphFor_marks (c : CharEntry) (back forward : Bool) : (glyphFor slots resolve c back forward).marks = [] := by
  unfold glyphFor
  split
  · rfl
  · split
    · rfl
    · split
      · rfl
      · split <;> rfl

theorem glyphItems_spec {cs : List CharEntry} {js : List (Bool × Bool)} {x : GlyphItem}
    (h : x ∈ glyphItems slots resolve cs js) :
    ∃ back forward, x.g = glyphFor slots resolve x.chr back forward := by
  induction cs generalizing js with
  | nil => cases js <;> cases h
  | cons c cs ih =>
    cases js with
    | nil => cases h
    | cons j js =>
      rcases List.mem_cons.1 h with rfl | h
      · exact ⟨_, _, rfl⟩
      · exact ih h

theorem shapeWord_resolved (resolved : ∀ n i, resolve n = some i → Q i) {cs : List CharEntry} {ps : List Nat} {i : Fin 8}
    (h : i ∈ (shapeWord slots resolve cs ps).2) : Q i := by
  obtain ⟨x, hx, hi⟩ := List.mem_filterMap.1 h
  obtain ⟨_, _, e⟩ := glyphItems_spec hx
  exact glyphFor_resolved resolved (e ▸ hi)

end

/-! ## The slots of a shaped word (R66 to R72) -/

/-- The slots of items still in the order of the characters. -/
def itemSlots (items : List GlyphItem) : List (Fin 8) := items.flatMap fun x => x.g.usedSlots

/-- The slots of spacing elements and their marks. -/
def spacingSlots (es : List Spacing) : List (Fin 8) := es.flatMap Spacing.usedSlots

section
variable {slots : Vector Slot 8} {k : Fin 8}

theorem kernElements_slots (es : List Spacing) : spacingSlots (kernElements slots es) = spacingSlots es := by
  induction es with
  | nil => rfl
  | cons e es ih =>
    cases es with
    | nil => rfl
    | cons f rest =>
      simp only [kernElements, spacingSlots, List.flatMap_cons] at ih ⊢
      rw [ih]
      rfl

theorem placePoints_slots (points : List Nat) (n : Nat) (es : List Spacing) :
    spacingSlots (placePoints points n es) = spacingSlots es := by
  induction es generalizing n with
  | nil => rfl
  | cons e es ih =>
    cases es with
    | nil => rfl
    | cons f rest =>
      have := ih (n + e.span)
      simp only [placePoints, spacingSlots, List.flatMap_cons] at this ⊢
      rw [this]
      rfl

theorem matchLigature_slots {a lig : GlyphItem} {rest : List GlyphItem} {n : Nat}
    (h : matchLigature slots a rest = some (lig, n)) : lig.g.usedSlots = a.g.usedSlots := by
  have kept : ∀ (s : Slot) (r m : Nat) (last : GlyphItem), (ligatureItem s r m a last).g.usedSlots = a.g.usedSlots :=
    fun _ _ _ _ => rfl
  unfold matchLigature at h
  split at h
  · cases h
  · dsimp only at h
    have either {a b : Option (GlyphItem × Nat)} {x : GlyphItem × Nat} (h : a.orElse (fun _ => b) = some x) :
        a = some x ∨ b = some x := by
      cases a with
      | none => exact .inr h
      | some _ => exact .inl h
    have found {p : LigatureEntry → Bool} {entries : List LigatureEntry} {s : Slot} {m j : Nat} {last : GlyphItem}
        (h : ((entries.find? p).map fun e => (ligatureItem s e.result m a last, j)) = some (lig, n)) :
        lig.g.usedSlots = a.g.usedSlots := by
      obtain ⟨_, -, e⟩ := Option.map_eq_some_iff.1 h
      injection e with e _
      exact e ▸ kept _ _ _ _
    rcases either h with h | h
    · split at h
      · split at h
        · exact found h
        · cases h
      · cases h
    · split at h
      · split at h
        · exact found h
        · cases h
      · cases h

theorem formLigatures_slots {skip : Nat} {items : List GlyphItem} (h : k ∈ itemSlots (formLigatures slots skip items)) :
    k ∈ itemSlots items := by
  have later {a : GlyphItem} {rest : List GlyphItem} (h : k ∈ itemSlots rest) : k ∈ itemSlots (a :: rest) :=
    List.mem_append_right _ h
  induction items generalizing skip with
  | nil => cases skip <;> exact h
  | cons a rest ih =>
    cases skip with
    | succ n => exact later (ih h)
    | zero =>
      simp only [formLigatures] at h
      split at h
      · next lig n found =>
        rcases List.mem_append.1 h with h | h
        · exact List.mem_append_left _ (by
            have e := matchLigature_slots found
            exact (e ▸ h : k ∈ a.g.usedSlots))
        · exact later (ih h)
      · rcases List.mem_append.1 h with h | h
        · exact List.mem_append_left _ h
        · exact later (ih h)

theorem Spacing.mem_usedSlots (e : Spacing) :
    k ∈ e.usedSlots ↔ e.slot = some k ∨ ∃ m ∈ e.marks, m.slot = some k := by
  simp [Spacing.usedSlots, List.mem_flatMap, Option.mem_toList]

theorem attachMarks_slots {done : List Spacing} {dropped : Bool} {items : List GlyphItem}
    (h : k ∈ spacingSlots (attachMarks slots done dropped items).1) : k ∈ spacingSlots done ∨ k ∈ itemSlots items := by
  have later {x : GlyphItem} {rest : List GlyphItem} (h : k ∈ spacingSlots done ∨ k ∈ itemSlots rest) :
      k ∈ spacingSlots done ∨ k ∈ itemSlots (x :: rest) := h.imp_right (List.mem_append_right _)
  induction items generalizing done dropped with
  | nil =>
    rw [attachMarks] at h
    obtain ⟨e, he, hk⟩ := List.mem_flatMap.1 h
    exact .inl (List.mem_flatMap.2 ⟨e, List.mem_reverse.1 he, hk⟩)
  | cons x rest ih =>
    have first (h : k ∈ x.g.usedSlots) : k ∈ itemSlots (x :: rest) := List.mem_append_left _ h
    have after (h : k ∈ itemSlots rest) : k ∈ itemSlots (x :: rest) := List.mem_append_right _ h
    unfold attachMarks at h
    split at h
    · split at h
      · rcases ih h (fun h => h.imp_right (List.mem_append_right _)) with h | h
        · exact .inr (first (by simpa [spacingSlots, Spacing.usedSlots] using h))
        · exact .inr (after h)
      · next base earlier =>
        split at h
        · rcases ih h (fun h => h.imp_right (List.mem_append_right _)) with h | h
          · rcases List.mem_append.1 h with h | h
            · rw [Spacing.mem_usedSlots] at h
              rcases h with h | ⟨m, hm, hs⟩
              · exact .inl (List.mem_append_left _ ((base.mem_usedSlots).2 (.inl h)))
              · rcases List.mem_append.1 hm with hm | hm
                · exact .inl (List.mem_append_left _ ((base.mem_usedSlots).2 (.inr ⟨m, hm, hs⟩)))
                · rw [List.mem_singleton] at hm
                  subst hm
                  exact .inr (first ((x.g.mem_usedSlots).2 (.inl hs)))
            · exact .inl (List.mem_append_right _ h)
          · exact .inr (after h)
        · rcases ih h (fun h => h.imp_right (List.mem_append_right _)) with h | h
          · exact .inl h
          · exact .inr (after h)
    · rcases ih h (fun h => h.imp_right (List.mem_append_right _)) with h | h
      · rcases List.mem_append.1 h with h | h
        · exact .inr (first h)
        · exact .inl h
      · exact .inr (after h)

/-- A shaped word uses no slot but those that its glyph resolutions yielded. -/
theorem shapeWord_usedSlots {resolve : Nat → Option (Fin 8)} {cs : List CharEntry} {ps : List Nat}
    (h : k ∈ (shapeWord slots resolve cs ps).1.usedSlots) : k ∈ (shapeWord slots resolve cs ps).2 := by
  change k ∈ spacingSlots (kernElements slots (placePoints ps 0 _)) at h
  rw [kernElements_slots, placePoints_slots] at h
  rcases attachMarks_slots h with h | h
  · cases h
  · obtain ⟨x, hx, hk⟩ := List.mem_flatMap.1 (formLigatures_slots h)
    obtain ⟨_, _, e⟩ := glyphItems_spec hx
    refine List.mem_filterMap.2 ⟨x, hx, ?_⟩
    rcases (x.g.mem_usedSlots).1 hk with hk | ⟨m, hm, -⟩
    · exact hk
    · rw [e, glyphFor_marks] at hm
      cases hm

end

/-! ## Exposure order (R104) -/

theorem reverseRuns_perm {α : Type} (test : α → Bool) (acc xs : List α) :
    (reverseRuns test acc xs).Perm (acc ++ xs) := by
  induction xs generalizing acc with
  | nil => simp [reverseRuns]
  | cons x rest ih =>
    unfold reverseRuns
    split
    · exact (ih (x :: acc)).trans List.perm_middle.symm
    · exact List.Perm.append_left _ ((ih []).cons x)

/-- Exposure order loses and adds no element. -/
theorem exposureOrder_perm {α : Type} (baseRight : Bool) (xs : List (α × Bool)) :
    (exposureOrder baseRight xs).Perm (xs.map (·.1)) := by
  unfold exposureOrder
  split
  · exact ((reverseRuns_perm _ [] xs.reverse).trans xs.reverse_perm).map _
  · exact (reverseRuns_perm _ [] xs).map _

/-! ## The slots of a set line (R95, R109) -/

/-- The slots of a line's elements. -/
def lineSlots (els : List LineElement) : List (Fin 8) := els.flatMap LineElement.usedSlots

section
variable {slots : Vector Slot 8} {k : Fin 8}

theorem mem_lineSlots {els : List LineElement} : k ∈ lineSlots els ↔ ∃ e ∈ els, k ∈ e.usedSlots := List.mem_flatMap

theorem elongationAfter_slots {x e : LineElement} (h : elongationAfter slots x = some e) (hk : k ∈ e.usedSlots) :
    k ∈ x.usedSlots := by
  unfold elongationAfter at h
  split at h
  · cases h
  · cases h
  · next f m g =>
    split at h
    · cases h
    · next i hi =>
      split at h
      · injection h with h
        subst h
        exact (g.mem_usedSlots).2 (.inl (by rw [hi, List.mem_singleton.1 hk]))
      · cases h

theorem insertElongation_slots {xs : List (LineElement × Nat)} (h : k ∈ lineSlots (insertElongation slots xs)) :
    k ∈ lineSlots (xs.map (·.1)) := by
  induction xs with
  | nil => exact h
  | cons x rest ih =>
    obtain ⟨x, n⟩ := x
    obtain ⟨e, he, hk⟩ := mem_lineSlots.1 h
    have here (h : k ∈ x.usedSlots) : k ∈ lineSlots (((x, n) :: rest).map (·.1)) := List.mem_append_left _ h
    rcases List.mem_append.1 he with he | he
    · exact List.mem_append_right _ (ih (mem_lineSlots.2 ⟨e, he, hk⟩))
    · rcases List.mem_cons.1 he with rfl | he
      · exact here hk
      · cases hx : elongationAfter slots x with
        | none => rw [hx] at he; cases he
        | some y =>
          rw [hx] at he
          exact here (elongationAfter_slots hx (List.eq_of_mem_replicate he ▸ hk))

theorem elongationRound_elements (limit short count : Nat) (xs : List (LineElement × Nat)) :
    (elongationRound slots limit short count xs).1.map (·.1) = xs.map (·.1) := by
  induction xs generalizing short count with
  | nil => rfl
  | cons x rest ih =>
    obtain ⟨x, n⟩ := x
    unfold elongationRound
    split
    · simp [ih]
    · split <;> simp [ih]

theorem elongationRounds_elements (limit n : Nat) (r : List (LineElement × Nat) × Nat × Nat) :
    (elongationRounds slots limit n r).1.map (·.1) = r.1.map (·.1) := by
  induction n generalizing r with
  | zero => rfl
  | succ n ih => rw [elongationRounds, ih, elongationRound_elements]

theorem elongate_slots {h : Header} {line : LineAssembly} {short : Nat}
    (hk : k ∈ lineSlots (elongate slots h line short).1) : k ∈ lineSlots line.elements := by
  unfold elongate at hk
  split at hk
  · have := insertElongation_slots hk
    rw [elongationRounds_elements] at this
    obtain ⟨e, he, hk⟩ := mem_lineSlots.1 this
    exact mem_lineSlots.2 ⟨e, by simpa using he, hk⟩
  · exact hk

theorem setOut_elements (spaceAt gapAt : Nat → Nat) (si gi : Nat) (els : List LineElement) :
    (setOut spaceAt gapAt si gi els).map (·.1) = els := by
  induction els generalizing si gi with
  | nil => rfl
  | cons e rest ih =>
    cases e with
    | space => simp [setOut, ih]
    | elongation => simp [setOut, ih]
    | glyph f m g =>
      simp only [setOut]
      split <;> simp [ih]

theorem justifyLine_slots {h : Header} {line : LineAssembly}
    (hk : k ∈ lineSlots ((justifyLine slots h line).elements.map (·.1))) : k ∈ lineSlots line.elements := by
  unfold justifyLine at hk
  dsimp only at hk
  repeat' split at hk
  all_goals
    dsimp only at hk
    rw [setOut_elements] at hk
    first
      | exact hk
      | exact elongate_slots hk

theorem setByQuad_slots {h : Header} {line : LineAssembly} {quad : Quad} {flags : LineFlags}
    (hk : k ∈ lineSlots ((setByQuad slots h line quad flags).elements.map (·.1))) : k ∈ lineSlots line.elements := by
  have normal {p : Placing} (hk : k ∈ lineSlots ((setNormal h line p).elements.map (·.1))) : k ∈ lineSlots line.elements := by
    unfold setNormal at hk
    dsimp only at hk
    rwa [setOut_elements] at hk
  unfold setByQuad at hk
  split at hk
  · exact normal hk
  · split at hk
    · split at hk
      · exact normal hk
      · exact justifyLine_slots hk
    · exact normal hk
    · exact normal hk
    · exact normal hk

theorem placeElements_slots {h : Header} {x : Nat} {els : List (LineElement × Nat)}
    (hk : k ∈ placedSlots (placeElements h x els)) : k ∈ lineSlots (els.map (·.1)) := by
  induction els generalizing x with
  | nil => exact hk
  | cons el rest ih =>
    obtain ⟨el, f⟩ := el
    have later {y : Nat} (hk : k ∈ placedSlots (placeElements h y rest)) : k ∈ lineSlots (((el, f) :: rest).map (·.1)) :=
      List.mem_append_right _ (ih hk)
    cases el with
    | space => exact later hk
    | elongation i g w p z =>
      rcases List.mem_append.1 hk with hk | hk
      · exact List.mem_append_left _ hk
      · exact later hk
    | glyph m b g =>
      rcases List.mem_append.1 hk with hk | hk
      · exact List.mem_append_left _ ((g.mem_usedSlots).2 (.inl (Option.mem_toList.1 hk)))
      · obtain ⟨p, hp, hk⟩ := List.mem_flatMap.1 hk
        rcases List.mem_append.1 hp with hp | hp
        · obtain ⟨m, hm, rfl⟩ := List.mem_map.1 hp
          exact List.mem_append_left _ ((g.mem_usedSlots).2 (.inr ⟨m, hm, Option.mem_toList.1 hk⟩))
        · exact later (List.mem_flatMap.2 ⟨p, hp, hk⟩)

/-- The placed glyphs of a set line use no slot but those of its elements. -/
theorem setLine_slots {h : Header} {line : LineAssembly} {quad : Quad} {flags : LineFlags}
    (hk : k ∈ placedSlots (setLine slots h line quad flags).1) : k ∈ lineSlots line.elements := by
  unfold setLine at hk
  obtain ⟨e, he, hk⟩ := mem_lineSlots.1 (placeElements_slots hk)
  refine setByQuad_slots (slots := slots) (h := h) (quad := quad) (flags := flags) (mem_lineSlots.2 ⟨e, ?_, hk⟩)
  obtain ⟨x, hx, rfl⟩ := List.mem_map.1 he
  obtain ⟨y, hy, rfl⟩ := List.mem_map.1 ((exposureOrder_perm _ _).mem_iff.1 hx)
  exact List.mem_map_of_mem (List.of_mem_zip hy).1

end

end Sys2Proof.Machine

/-! What the Setter's work on a link is made of (R117): every operation of the parser and of line filling is a chain of moves, so
that an invariant is proved move by move. -/

namespace Sys2Proof.Machine

/-! ## Moves -/

/-- A change of the setting context that leaves the current galley and all that the link holds of its copy alone, and keeps the
bounds. -/
structure QuietSetting (x y : Setting) : Prop where
  galley : y.galley = x.galley
  line : y.line = x.line
  held : y.held = x.held
  sets : x.galley ≠ none → x.sets → y.sets
  bounds : SettingSound x → SettingSound y

/-- A setting context that has given up its galley and all it held of it. -/
structure GivenUp (x y : Setting) : Prop where
  galley : y.galley = none
  line : y.line = emptyLine
  held : y.held = none
  bounds : SettingSound x → SettingSound y

/-- A record changed in its flags, its mark and its missing count alone. -/
def FlagsOnly (f : Galley → Galley) : Prop :=
  ∀ r, f r = { r with flags := (f r).flags, mark := (f r).mark, missing := (f r).missing }

/-- A header completed: the record g given to the link with the header's values (R41, R111). -/
def Bench.allocated (b : Bench) (g : Fin 32) : Bench :=
  { b.withSetting fun s =>
      { s with parser := .inGalley, galley := some g, header := [], heldFlags := 0#16
               ctx := some (headerContext b.slots b.link.setting.header), stack := [], overflow := 0, extraLead := 0
               buffer := [], points := [], line := emptyLine, ladder := 0, held := none } with
    table := b.table.allocate g (newGalley b.id b.link.setting.header b.link.setting.heldFlags) }

/-- The slots of a list are used already by what the link holds of its galley's copy, or stand in the font-use set of its
galley; ok: what the link held when its turn began stood in it. -/
def Bench.Covers (ok : Prop) (b : Bench) (g : Fin 32) (ks : List (Fin 8)) : Prop :=
  ∀ k ∈ ks, k ∈ b.link.setting.usedSlots ∨ (ok → k ∈ b.useSet g)

/-- One move of the Setter's work on a link. -/
inductive Bench.Move (ok : Prop) : Bench → Bench → Prop
  | setting (b : Bench) (y : Setting) : QuietSetting b.link.setting y → Move ok b (b.withSetting fun _ => y)
  | giveUp (b : Bench) (y : Setting) : GivenUp b.link.setting y → Move ok b (b.withSetting fun _ => y)
  | receiver (b : Bench) (rx : Receiver) : (ReceiverSound b.link.rx → ReceiverSound rx) →
      Move ok b { b with link := { b.link with rx := rx } }
  | measure (b : Bench) (m : MeasureSlot) : Move ok b { b with link := { b.link with measure := m } }
  | flags (b : Bench) (g : Fin 32) (f : Galley → Galley) : FlagsOnly f → Move ok b { b with table := b.table.modify g f }
  | joinSlot (b : Bench) (g : Fin 32) (i : Fin 8) : b.slots[i].inService → Move ok b (b.joinSlot g i)
  | joinLine (b : Bench) (g : Fin 32) (line : LineAssembly) : b.link.setting.galley = some g →
      b.Covers ok g (lineSlots line.elements) → Move ok b (b.withSetting fun x => { x with line := line })
  | appendLine (b : Bench) (g : Fin 32) (line : ClosedLine) : b.link.setting.galley = some g → b.table.freeLines ≠ 0 →
      b.Covers ok g (placedSlots line.glyphs) → Move ok b (b.appendLine g line)
  | hold (b : Bench) (g : Fin 32) (p : ParserState) (h : HeldLine) : b.link.setting.galley = some g →
      p = .waitLine ∨ p = .waitLimit → b.Covers ok g h.usedSlots →
      Move ok b (b.withSetting fun x => { x with parser := p, held := some h })
  | endGalley (b : Bench) (g : Fin 32) (start : Bool) : b.link.setting.galley = some g → Move ok b (b.endGalley g start)
  | allocate (b : Bench) (g : Fin 32) : b.table.records[g] = none → Move ok b (b.allocated g)
  | kill (b : Bench) (g : Fin 32) (o : GalleyOutcome) (y : Setting) :
      (∃ r, b.table.records[g] = some r ∧ r.link = b.id) ∨ b.link.setting.galley = some g →
      GivenUp b.link.setting y ∨ (y = b.link.setting ∧
        (y.galley = some g → y.sets → ∀ r, b.table.records[g] = some r → r.ended = true)) →
      Move ok b { b.withSetting fun _ => y with table := b.table.kill g o }
  | resume (b : Bench) (g : Fin 32) : (∃ r, b.table.records[g] = some r ∧ r.link = b.id) →
      Move ok b { b with table := b.table.resume g }
  | setClass (b : Bench) (g : Fin 32) (c : Nat) : Move ok b { b with table := b.table.setClass g c }

/-- A chain of moves. -/
def Bench.Moves (ok : Prop) : Bench → Bench → Prop := Relation.ReflTransGen (Bench.Move ok)

section
variable {ok : Prop} {b c d : Bench} {g : Fin 32}

theorem Bench.Moves.refl (b : Bench) : b.Moves ok b := Relation.ReflTransGen.refl

theorem Bench.Move.one (h : b.Move ok c) : b.Moves ok c := Relation.ReflTransGen.single h

theorem Bench.Moves.trans (h : b.Moves ok c) (k : c.Moves ok d) : b.Moves ok d := Relation.ReflTransGen.trans h k

theorem Bench.Moves.then (h : b.Moves ok c) (k : c.Move ok d) : b.Moves ok d := h.tail k

/-- What every move keeps, a chain keeps. -/
theorem Bench.Moves.induct {P : Bench → Prop} (step : ∀ b c : Bench, b.Move ok c → P b → P c) (h : b.Moves ok c)
    (hb : P b) : P c := by
  induction h with
  | refl => exact hb
  | tail _ m ih => exact step _ _ m ih

/-! ## The font-use set only grows (R16) -/

/-- A galley record stands and its font-use set holds all that it held. -/
def Bench.Grows (g : Fin 32) (b c : Bench) : Prop :=
  b.table.records[g] ≠ none → c.table.records[g] ≠ none ∧ ∀ k ∈ b.useSet g, k ∈ c.useSet g

theorem Bench.useSet_of_some {r : Galley} (h : b.table.records[g] = some r) : b.useSet g = r.useSet := by
  unfold Bench.useSet
  rw [h]

theorem Bench.useSet_of_none (h : b.table.records[g] = none) : b.useSet g = [] := by
  unfold Bench.useSet
  rw [h]

theorem Bench.useSet_congr (h : c.table.records[g] = b.table.records[g]) : c.useSet g = b.useSet g := by
  unfold Bench.useSet
  rw [h]

/-- A record of the first table stands in the second with the same link and font-use set. -/
def RecordsStand (t t' : GalleyTable) : Prop :=
  ∀ (g : Fin 32) (r : Galley), t.records[g] = some r →
    ∃ r', t'.records[g] = some r' ∧ r'.link = r.link ∧ r'.useSet = r.useSet

end

theorem RecordsStand.refl (t : GalleyTable) : RecordsStand t t := fun _ r h => ⟨r, h, rfl, rfl⟩

theorem RecordsStand.trans {t u v : GalleyTable} (a : RecordsStand t u) (b : RecordsStand u v) : RecordsStand t v := by
  intro g r hr
  obtain ⟨q, hq, ql, qu⟩ := a g r hr
  obtain ⟨p, hp, pl, pu⟩ := b g q hq
  exact ⟨p, hp, pl.trans ql, pu.trans qu⟩

theorem RecordsStand.set {t : GalleyTable} {g : Fin 32} {r q : Galley} (hr : t.records[g] = some r) (link : q.link = r.link)
    (used : q.useSet = r.useSet) {t' : GalleyTable} (ht : t'.records = t.records.set g (some q)) : RecordsStand t t' := by
  intro h p hp
  rw [ht]
  by_cases e : g = h
  · subst e
    rw [hr] at hp
    injection hp with hp
    exact ⟨q, set_same _ _ _, hp ▸ link, hp ▸ used⟩
  · exact ⟨p, (set_other _ e _).trans hp, rfl, rfl⟩

theorem RecordsStand.modify (t : GalleyTable) (g : Fin 32) {f : Galley → Galley}
    (hf : ∀ r, (f r).link = r.link ∧ (f r).useSet = r.useSet) : RecordsStand t (t.modify g f) := by
  cases h : t.records[g] with
  | none => rw [GalleyTable.modify_of_none h]; exact .refl t
  | some r =>
    rw [GalleyTable.modify_of_some h]
    exact .set h (hf r).1 (hf r).2 rfl

theorem GalleyTable.joinEligible_records (t : GalleyTable) (g : Fin 32) : (t.joinEligible g).records = t.records := by
  unfold GalleyTable.joinEligible
  split
  · rfl
  · split <;> rfl

theorem RecordsStand.records {t t' : GalleyTable} (h : t'.records = t.records) : RecordsStand t t' :=
  fun g r hr => ⟨r, by rw [h]; exact hr, rfl, rfl⟩

theorem RecordsStand.joinEligible (t : GalleyTable) (g : Fin 32) : RecordsStand t (t.joinEligible g) :=
  .records (t.joinEligible_records g)

theorem RecordsStand.endGalley (t : GalleyTable) (g : Fin 32) : RecordsStand t (t.endGalley g) := by
  unfold GalleyTable.endGalley
  split
  · exact .refl t
  · split
    · refine RecordsStand.trans (RecordsStand.modify t g ?_) (.joinEligible _ g)
      exact fun _ => ⟨rfl, rfl⟩
    · exact .modify t g fun _ => ⟨rfl, rfl⟩

theorem Galley.appendLine_link_useSet (r : Galley) (g : Fin 32) (line : ClosedLine) :
    (r.appendLine g line).link = r.link ∧ (r.appendLine g line).useSet = r.useSet := by
  unfold Galley.appendLine Galley.raiseFlag
  dsimp only
  repeat' split
  all_goals exact ⟨rfl, rfl⟩

theorem RecordsStand.appendLine (t : GalleyTable) (g : Fin 32) (line : ClosedLine) : RecordsStand t (t.appendLine g line) := by
  unfold GalleyTable.appendLine
  split
  · exact .refl t
  · next r hr =>
    have appended {u : GalleyTable} (hu : u.records = t.records.set g (some (r.appendLine g line))) : RecordsStand t u :=
      .set hr (r.appendLine_link_useSet g line).1 (r.appendLine_link_useSet g line).2 hu
    dsimp only
    split
    · exact (appended rfl).trans (.joinEligible _ g)
    · exact appended rfl

theorem RecordsStand.finish (t : GalleyTable) (g : Fin 32) (o : GalleyOutcome) : RecordsStand t (t.finish g o) := by
  unfold GalleyTable.finish
  refine RecordsStand.trans ?_ (.modify _ g fun _ => ⟨rfl, rfl⟩)
  unfold GalleyTable.returnLines
  split
  · exact .records rfl
  · next r hr => exact RecordsStand.set (t := t) (g := g) (q := { r with lines := [] }) hr rfl rfl rfl

theorem RecordsStand.kill (t : GalleyTable) (g : Fin 32) (o : GalleyOutcome) : RecordsStand t (t.kill g o) := by
  unfold GalleyTable.kill
  split
  · exact .refl t
  · split
    · exact .refl t
    · split
      · exact .refl t
      · exact .modify t g fun _ => ⟨rfl, rfl⟩
    all_goals exact .finish t g o

theorem RecordsStand.resume (t : GalleyTable) (g : Fin 32) : RecordsStand t (t.resume g) := by
  unfold GalleyTable.resume
  split
  · exact .refl t
  · split
    · refine RecordsStand.trans (RecordsStand.modify t g ?_) (.joinEligible _ g)
      exact fun _ => ⟨rfl, rfl⟩
    · exact .refl t

theorem RecordsStand.setClass (t : GalleyTable) (g : Fin 32) (c : Nat) : RecordsStand t (t.setClass g c) := by
  unfold GalleyTable.setClass
  split
  · exact .refl t
  · split
    · exact .refl t
    · have changed : RecordsStand t (t.modify g fun r => { r with cls := c }) := .modify t g fun _ => ⟨rfl, rfl⟩
      dsimp only
      split
      · split
        · exact changed.trans (.records rfl)
        · exact changed.trans (.joinEligible _ g)
      · exact changed

section
variable {ok : Prop} {b c d : Bench} {g h : Fin 32}

theorem Bench.Grows.of_stand (s : RecordsStand b.table c.table) : Bench.Grows g b c := by
  intro hb
  obtain ⟨r, hr⟩ := Option.ne_none_iff_exists'.1 hb
  obtain ⟨q, hq, -, used⟩ := s g r hr
  exact ⟨by simp [-Fin.getElem_fin, hq], by rw [Bench.useSet_of_some hr, Bench.useSet_of_some hq, used]; exact fun _ h => h⟩

/-- A slot in service joined to a galley's font-use set: none, or its count up and the set with it (R16). -/
theorem Bench.joinSlot_cases (b : Bench) (g : Fin 32) (i : Fin 8) :
    (b.joinSlot g i = b ∧ ∀ r, b.table.records[g] = some r → i ∈ r.useSet) ∨
      ∃ r, b.table.records[g] = some r ∧ i ∉ r.useSet ∧ b.joinSlot g i =
        { b with slots := countUp b.slots i
                 table := { b.table with records := b.table.records.set g (some { r with useSet := r.useSet ++ [i] }) } } := by
  unfold Bench.joinSlot
  cases hr : b.table.records[g] with
  | none => exact .inl ⟨rfl, fun _ e => by cases e⟩
  | some r =>
    dsimp only
    by_cases used : i ∈ r.useSet
    · exact .inl ⟨if_pos used, fun _ e => by injection e with e; exact e ▸ used⟩
    · refine .inr ⟨r, rfl, used, ?_⟩
      rw [if_neg used, GalleyTable.modify_of_some hr]

theorem Bench.joinSlot_grows (b : Bench) (g h : Fin 32) (i : Fin 8) : Bench.Grows h b (b.joinSlot g i) := by
  rcases b.joinSlot_cases g i with ⟨e, -⟩ | ⟨r, hr, -, e⟩
  · rw [e]
    exact fun hb => ⟨hb, fun _ h => h⟩
  · rw [e]
    intro hb
    by_cases eg : g = h
    · subst eg
      refine ⟨by simp, fun k hk => ?_⟩
      rw [Bench.useSet_of_some hr] at hk
      rw [Bench.useSet_of_some (set_same _ _ _)]
      exact List.mem_append_left _ hk
    · have same : (b.table.records.set g (some { r with useSet := r.useSet ++ [i] }))[h] = b.table.records[h] := set_other _ eg _
      exact ⟨fun hn => hb (same.symm.trans hn), fun k hk => by rwa [Bench.useSet_congr (b := b) same]⟩

theorem Bench.Move.grows (m : b.Move ok c) : Bench.Grows g b c := by
  cases m with
  | setting | giveUp | receiver | measure | joinLine | hold => exact .of_stand (.refl _)
  | flags h f hf =>
    exact .of_stand (.modify _ h fun r => by rw [hf r]; exact ⟨rfl, rfl⟩)
  | joinSlot h i => exact b.joinSlot_grows h g i
  | appendLine h line => exact .of_stand (.appendLine _ h line)
  | endGalley h start => exact .of_stand (.endGalley _ h)
  | allocate h free =>
    refine .of_stand fun k r hr => ⟨r, ?_, rfl, rfl⟩
    have other : h ≠ k := by
      rintro rfl
      rw [free] at hr
      cases hr
    exact (set_other _ other _).trans hr
  | kill h o => exact .of_stand (.kill _ h o)
  | resume h => exact .of_stand (.resume _ h)
  | setClass h c => exact .of_stand (.setClass _ h c)

theorem Bench.Moves.grows (m : b.Moves ok c) : Bench.Grows g b c := by
  induction m with
  | refl => exact fun hb => ⟨hb, fun _ h => h⟩
  | tail _ m ih =>
    intro hb
    obtain ⟨h1, u1⟩ := ih hb
    obtain ⟨h2, u2⟩ := m.grows h1
    exact ⟨h2, fun k hk => u2 k (u1 k hk)⟩

/-! ## What a chain of moves leaves alone -/

theorem Bench.Move.id_eq (m : b.Move ok c) : c.id = b.id := by
  cases m <;> first | rfl | exact Bench.joinSlot_id _ _ _

theorem Bench.joinSlot_link (b : Bench) (g : Fin 32) (i : Fin 8) : (b.joinSlot g i).link = b.link := by
  rcases b.joinSlot_cases g i with ⟨e, -⟩ | ⟨r, -, -, e⟩ <;> rw [e]

theorem Bench.joinSlot_classes (b : Bench) (g : Fin 32) (i : Fin 8) : (b.joinSlot g i).classes = b.classes := by
  rcases b.joinSlot_cases g i with ⟨e, -⟩ | ⟨r, -, -, e⟩ <;> rw [e]

theorem Bench.Move.tx_eq (m : b.Move ok c) : c.link.tx = b.link.tx := by
  cases m <;> first | rfl | rw [Bench.joinSlot_link]

theorem Bench.Moves.id_eq (m : b.Moves ok c) : c.id = b.id := by
  induction m with
  | refl => rfl
  | tail _ m ih => exact m.id_eq.trans ih

theorem Bench.Moves.tx_eq (m : b.Moves ok c) : c.link.tx = b.link.tx := by
  induction m with
  | refl => rfl
  | tail _ m ih => exact m.tx_eq.trans ih

/-- A slot but for its count: the Setter changes no more of it (R16). -/
theorem countUp_slot (slots : Vector Slot 8) (i k : Fin 8) :
    (countUp slots i)[k] = { slots[k] with refCount := (countUp slots i)[k].refCount } := by
  by_cases e : i = k
  · subst e
    simp [countUp, modifyAt]
  · unfold countUp
    rw [modifyAt_other _ e]

theorem Bench.joinSlot_slot (b : Bench) (g : Fin 32) (i k : Fin 8) :
    (b.joinSlot g i).slots[k] = { b.slots[k] with refCount := (b.joinSlot g i).slots[k].refCount } := by
  rcases b.joinSlot_cases g i with ⟨e, -⟩ | ⟨r, -, -, e⟩
  · rw [e]
  · rw [e]
    exact countUp_slot _ _ _

theorem Bench.joinSlot_inService (b : Bench) (g : Fin 32) (i k : Fin 8) :
    (b.joinSlot g i).slots[k].inService ↔ b.slots[k].inService := by
  rw [b.joinSlot_slot g i k]
  exact Iff.rfl

end

end Sys2Proof.Machine

/-! Line filling is a chain of moves (R73 to R89, R114, R115). -/

namespace Sys2Proof.Machine

section
variable {ok : Prop} {b c d : Bench} {g : Fin 32} {h : Header}

/-! ## Shaping for a galley (R64, R66) -/

/-- The word's slots stand in the galley's font-use set. -/
def Bench.Holds (b : Bench) (g : Fin 32) (w : ShapedWord) : Prop := ∀ k ∈ w.usedSlots, k ∈ b.useSet g

theorem Bench.Moves.holds (m : b.Moves ok c) (record : b.table.records[g] ≠ none) {w : ShapedWord} (hw : b.Holds g w) :
    c.Holds g w := fun k hk => (m.grows record).2 k (hw k hk)

theorem Bench.joinSlots_moves (l : List (Fin 8)) (service : ∀ i ∈ l, b.slots[i].inService) :
    b.Moves ok (b.joinSlots g l) := by
  induction l generalizing b with
  | nil => exact .refl b
  | cons i l ih =>
    have first : b.Move ok (b.joinSlot g i) := .joinSlot b g i (service i List.mem_cons_self)
    exact first.one.trans (ih fun j hj => (b.joinSlot_inService g i j).2 (service j (List.mem_cons_of_mem _ hj)))

theorem Bench.joinSlot_mem (record : b.table.records[g] ≠ none) (i : Fin 8) : i ∈ (b.joinSlot g i).useSet g := by
  obtain ⟨r, hr⟩ := Option.ne_none_iff_exists'.1 record
  rcases b.joinSlot_cases g i with ⟨e, used⟩ | ⟨q, -, -, e⟩
  · rw [e, Bench.useSet_of_some hr]
    exact used r hr
  · rw [e, Bench.useSet_of_some (set_same _ _ _)]
    simp

theorem Bench.joinSlots_mem {l : List (Fin 8)} (record : b.table.records[g] ≠ none) {i : Fin 8} (hi : i ∈ l) :
    i ∈ (b.joinSlots g l).useSet g := by
  have grows (b : Bench) (l : List (Fin 8)) (record : b.table.records[g] ≠ none) :
      (b.joinSlots g l).table.records[g] ≠ none ∧ ∀ k ∈ b.useSet g, k ∈ (b.joinSlots g l).useSet g := by
    induction l generalizing b with
    | nil => exact ⟨record, fun _ h => h⟩
    | cons j l ih =>
      have one := b.joinSlot_grows g g j record
      have rest := ih _ one.1
      exact ⟨rest.1, fun k hk => rest.2 k (one.2 k hk)⟩
  induction l generalizing b with
  | nil => cases hi
  | cons j l ih =>
    have one := b.joinSlot_grows g g j record
    rcases List.mem_cons.1 hi with rfl | hi
    · exact (grows _ l one.1).2 i (Bench.joinSlot_mem record i)
    · exact ih one.1 hi

theorem Bench.joinSlots_link (l : List (Fin 8)) : (b.joinSlots g l).link = b.link := by
  induction l generalizing b with
  | nil => rfl
  | cons i l ih => rw [Bench.joinSlots, ih, Bench.joinSlot_link]

theorem Bench.joinSlots_of_none (free : b.table.records[g] = none) (l : List (Fin 8)) : b.joinSlots g l = b := by
  induction l with
  | nil => rfl
  | cons i l ih =>
    have same : b.joinSlot g i = b := by
      unfold Bench.joinSlot
      rw [free]
    rw [Bench.joinSlots, same, ih]

theorem Bench.takeRecord_record_none (free : b.table.records[g] = none) (l : HeldLine) :
    (b.takeRecord g l).1.table.records[g] = none := by
  unfold Bench.takeRecord
  split
  · exact free
  · split
    · exact free
    · show (b.table.appendLine g l.line).records[g] = _
      unfold GalleyTable.appendLine
      rw [free]
      exact free

/-- A trial of line filling: only slots have joined, and the link holds what it held. -/
structure Bench.Tried (ok : Prop) (b t : Bench) : Prop where
  moves : b.Moves ok t
  link : t.link = b.link

theorem Bench.Tried.refl (b : Bench) : Bench.Tried ok b b := ⟨.refl b, rfl⟩

theorem Bench.Tried.trans (x : Bench.Tried ok b c) (y : Bench.Tried ok c d) : Bench.Tried ok b d :=
  ⟨x.moves.trans y.moves, y.link.trans x.link⟩

theorem Bench.Tried.record (x : Bench.Tried ok b c) (record : b.table.records[g] ≠ none) : c.table.records[g] ≠ none :=
  (x.moves.grows record).1

theorem Bench.shape_tried (b : Bench) (g : Fin 32) (cs : List CharEntry) (ps : List Nat) :
    Bench.Tried ok b (b.shape g cs ps).1 :=
  ⟨Bench.joinSlots_moves _ fun _ hi => shapeWord_resolved (fun _ _ => resolveFor_inService) hi, Bench.joinSlots_link _⟩

theorem Bench.shape_holds (record : b.table.records[g] ≠ none) (cs : List CharEntry) (ps : List Nat) :
    (b.shape g cs ps).1.Holds g (b.shape g cs ps).2 :=
  fun _ hk => Bench.joinSlots_mem record (shapeWord_usedSlots hk)

/-! ## A word joins the line (R66, R81) -/

theorem lineElements_slots (first : Bool) (es : List Spacing) : lineSlots (lineElements first es) = spacingSlots es := by
  induction es generalizing first with
  | nil => rfl
  | cons e es ih =>
    simp only [lineElements, lineSlots, spacingSlots, List.flatMap_cons] at ih ⊢
    rw [ih]
    rfl

theorem joinLine_slots {line : LineAssembly} {w : ShapedWord} {brk : Break} {k : Fin 8}
    (hk : k ∈ lineSlots (joinLine h line w brk).elements) : k ∈ lineSlots line.elements ∨ k ∈ w.usedSlots := by
  obtain ⟨n, e⟩ : ∃ n, (joinLine h line w brk).elements =
      line.elements ++ List.replicate n .space ++ lineElements true w.elements := by
    unfold joinLine
    dsimp only
    split
    · exact ⟨_, rfl⟩
    · exact ⟨_, rfl⟩
  rw [e] at hk
  unfold lineSlots at hk
  rw [List.flatMap_append, List.flatMap_append] at hk
  rcases List.mem_append.1 hk with hk | hk
  · rcases List.mem_append.1 hk with hk | hk
    · exact .inl hk
    · obtain ⟨x, hx, hk⟩ := List.mem_flatMap.1 hk
      rw [List.eq_of_mem_replicate hx] at hk
      cases hk
  · rw [show List.flatMap LineElement.usedSlots (lineElements true w.elements) = spacingSlots w.elements from
      lineElements_slots true w.elements] at hk
    exact .inr hk

theorem Galley.raiseFlag_eq (r : Galley) (f : GalleyFlag) :
    r.raiseFlag f = { r with flags := (r.raiseFlag f).flags, mark := (r.raiseFlag f).mark } := by
  unfold Galley.raiseFlag
  split <;> rfl

theorem flagsOnly_raiseFlag (f : GalleyFlag) : FlagsOnly fun r => r.raiseFlag f := fun r => by
  dsimp only
  rw [r.raiseFlag_eq f]

theorem flagsOnly_takeWord (w : ShapedWord) : FlagsOnly fun r => r.takeWord w := fun r => by
  unfold Galley.takeWord
  dsimp only
  repeat' split
  all_goals simp only [Galley.raiseFlag]
  all_goals repeat' split
  all_goals rfl

theorem Bench.join_moves (galley : b.link.setting.galley = some g) (w : ShapedWord) (brk : Break)
    (holds : ok → b.Holds g w) : b.Moves ok (b.join g h w brk) := by
  have line : b.Move ok (b.withSetting fun x => { x with line := joinLine h b.link.setting.line w brk }) :=
    .joinLine b g _ galley fun k hk => by
      rcases joinLine_slots hk with hk | hk
      · exact .inl (List.mem_append_left _ hk)
      · exact .inr fun o => holds o k hk
  exact line.one.then (.flags _ g _ (flagsOnly_takeWord w))

/-! ## A line record asked for (R87, R114, R115) -/

theorem Bench.Covers.mono {ks ls : List (Fin 8)} (hc : b.Covers ok g ks) (sub : ∀ k ∈ ls, k ∈ ks) : b.Covers ok g ls :=
  fun k hk => hc k (sub k hk)

theorem Bench.takeRecord_moves (galley : b.link.setting.galley = some g) {l : HeldLine}
    (covers : b.Covers ok g l.usedSlots) :
    b.Moves ok (b.takeRecord g l).1 ∧ (b.takeRecord g l).1.link.setting.galley = some g := by
  unfold Bench.takeRecord
  split
  · exact ⟨(Bench.Move.hold b g .waitLimit l galley (.inr rfl) covers).one, galley⟩
  · split
    · exact ⟨(Bench.Move.hold b g .waitLine l galley (.inl rfl) covers).one, galley⟩
    · next room =>
      exact ⟨(Bench.Move.appendLine b g l.line galley room (covers.mono fun k hk => List.mem_append_left _ hk)).one, galley⟩

/-- The slots of the work that follows a line close. -/
def Rest.usedSlots : Rest → List (Fin 8)
  | .word w _ => w.usedSlots
  | .breakDue _ => []
  | .closed _ => []

theorem HeldLine.usedSlots_eq (l : HeldLine) : l.usedSlots = placedSlots l.line.glyphs ++ l.rest.usedSlots := by
  obtain ⟨line, rest⟩ := l
  cases rest <;> rfl

/-- Line filling works on the current galley g, and the word that it still has to place stands in g's font-use set. -/
structure Bench.Filling (ok : Prop) (b : Bench) (g : Fin 32) (rest : Rest) : Prop where
  galley : b.link.setting.galley = some g
  record : b.table.records[g] ≠ none
  slots : ok → ∀ k ∈ rest.usedSlots, k ∈ b.useSet g

theorem Bench.closeLine_filling {quad : Quad} {flags : LineFlags} {rest : Rest} (f : b.Filling ok g rest) :
    b.Moves ok (b.closeLine g h quad flags rest).1 ∧ (b.closeLine g h quad flags rest).1.Filling ok g rest := by
  unfold Bench.closeLine
  dsimp only
  refine (fun m : _ ∧ _ => ⟨m.1, m.2, (m.1.grows f.record).1,
    fun o k hk => (m.1.grows f.record).2 k (f.slots o k hk)⟩) (Bench.takeRecord_moves f.galley ?_)
  intro k hk
  rw [HeldLine.usedSlots_eq] at hk
  rcases List.mem_append.1 hk with hk | hk
  · exact .inl (List.mem_append_left _ (setLine_slots hk))
  · exact .inr fun o => f.slots o k hk

/-! ## Breaking a word (R73 to R75, R84, R85) -/

theorem Bench.tryPoints_tried (w : ShapedWord) (ps : List Nat) : Bench.Tried ok b (b.tryPoints g h w ps).1 := by
  induction ps generalizing b with
  | nil => exact .refl b
  | cons p ps ih =>
    simp only [Bench.tryPoints]
    split
    · exact (b.shape_tried g _ _).trans (Bench.shape_tried _ g _ _)
    · exact (b.shape_tried g _ _).trans ih

theorem Bench.tryPoints_holds (record : b.table.records[g] ≠ none) {w head tail : ShapedWord} {ps : List Nat}
    (found : (b.tryPoints g h w ps).2 = some (head, tail)) :
    (b.tryPoints g h w ps).1.Holds g head ∧ (b.tryPoints g h w ps).1.Holds g tail := by
  induction ps generalizing b with
  | nil => cases found
  | cons p ps ih =>
    have shaped := b.shape_tried (ok := True) g (w.chars.take p ++ [b.hyphenEntry h]) (w.points.filter (· < p))
    simp only [Bench.tryPoints] at found ⊢
    split at found
    · next fits =>
      rw [if_pos fits]
      injection found with found
      injection found with headEq tailEq
      subst headEq tailEq
      exact ⟨(Bench.shape_tried (ok := True) _ g _ _).moves.holds (shaped.record record) (Bench.shape_holds record _ _),
        Bench.shape_holds (shaped.record record) _ _⟩
    · next wide =>
      rw [if_neg wide]
      exact ih (shaped.record record) found

theorem Bench.forcedParts_tried (b : Bench) (g : Fin 32) (w : ShapedWord) (p : Nat) :
    Bench.Tried ok b (b.forcedParts g w p).1 :=
  (b.shape_tried g _ _).trans (Bench.shape_tried _ g _ _)

theorem Bench.forcedParts_holds (record : b.table.records[g] ≠ none) (w : ShapedWord) (p : Nat) :
    (b.forcedParts g w p).1.Holds g (b.forcedParts g w p).2.1 ∧ (b.forcedParts g w p).1.Holds g (b.forcedParts g w p).2.2 := by
  have head := b.shape_tried (ok := True) g (w.chars.take p) (w.points.filter (· < p))
  exact ⟨(Bench.shape_tried (ok := True) _ g _ _).moves.holds (head.record record) (Bench.shape_holds record _ _),
    Bench.shape_holds (head.record record) _ _⟩

theorem Bench.tryPlaces_tried (w : ShapedWord) (ps : List Nat) : Bench.Tried ok b (b.tryPlaces g h w ps).1 := by
  induction ps generalizing b with
  | nil => exact .refl b
  | cons p ps ih =>
    unfold Bench.tryPlaces
    dsimp only
    split
    · exact b.forcedParts_tried g w p
    · split
      · exact b.forcedParts_tried g w p
      · exact (b.shape_tried g _ _).trans ih

theorem Bench.tryPlaces_holds (record : b.table.records[g] ≠ none) {w head tail : ShapedWord} {wide : Bool} {ps : List Nat}
    (found : (b.tryPlaces g h w ps).2 = some (head, tail, wide)) :
    (b.tryPlaces g h w ps).1.Holds g head ∧ (b.tryPlaces g h w ps).1.Holds g tail := by
  induction ps generalizing b with
  | nil => cases found
  | cons p ps ih =>
    have forced (e : (b.forcedParts g w p).2.1 = head ∧ (b.forcedParts g w p).2.2 = tail) :
        (b.forcedParts g w p).1.Holds g head ∧ (b.forcedParts g w p).1.Holds g tail := by
      obtain ⟨rfl, rfl⟩ := e
      exact Bench.forcedParts_holds record w p
    have shaped := b.shape_tried (ok := True) g (w.chars.take p) (w.points.filter (· < p))
    unfold Bench.tryPlaces at found ⊢
    dsimp only at found ⊢
    split at found
    · next fits =>
      rw [if_pos fits]
      injection found with found
      injection found with e1 found
      injection found with e2 _
      exact forced ⟨e1, e2⟩
    · next tooWide =>
      rw [if_neg tooWide]
      cases ps with
      | nil =>
        injection found with found
        injection found with e1 found
        injection found with e2 _
        exact forced ⟨e1, e2⟩
      | cons q qs => exact ih (shaped.record record) found

/-! ## Line filling (R82 to R85, R89) -/

theorem Bench.finishBreak_moves (galley : b.link.setting.galley = some g) (brk : Break) :
    b.Moves ok (b.finishBreak g brk) := by
  cases brk with
  | galleyEnd => exact (Bench.Move.endGalley b g false galley).one
  | galleyStart => exact (Bench.Move.endGalley b g true galley).one
  | space => exact .refl b
  | cut => exact .refl b
  | endParagraph => exact .refl b
  | quad q => exact .refl b

theorem Bench.Tried.filling (t : Bench.Tried ok b c) {rest : Rest} (f : b.Filling ok g rest) : c.Filling ok g rest :=
  ⟨by rw [t.link]; exact f.galley, t.record f.record, fun o k hk => (t.moves.grows f.record).2 k (f.slots o k hk)⟩

/-- A line closed and the work after it, given that line filling goes on in moves. -/
theorem Bench.closeLine_goesOn {n : Nat} {rest : Rest}
    (ih : ∀ (b : Bench) (rest : Rest), b.Filling ok g rest → b.Moves ok (Bench.fill g h n b rest)) (f : b.Filling ok g rest)
    (quad : Quad) (flags : LineFlags) :
    b.Moves ok (if (b.closeLine g h quad flags rest).2 then Bench.fill g h n (b.closeLine g h quad flags rest).1 rest
      else (b.closeLine g h quad flags rest).1) := by
  obtain ⟨moves, filling⟩ := Bench.closeLine_filling (h := h) (quad := quad) (flags := flags) f
  split
  · exact moves.trans (ih _ _ filling)
  · exact moves

/-- A head part or word joined and its line closed, with the rest of the word to follow. -/
theorem Bench.join_closeLine_goesOn {n : Nat} {head : ShapedWord} {rest : Rest} {brk : Break}
    (ih : ∀ (b : Bench) (rest : Rest), b.Filling ok g rest → b.Moves ok (Bench.fill g h n b rest)) (f : b.Filling ok g rest)
    (holds : ok → b.Holds g head) (quad : Quad) (flags : LineFlags) :
    b.Moves ok
      (if ((b.join g h head brk).closeLine g h quad flags rest).2 then
        Bench.fill g h n ((b.join g h head brk).closeLine g h quad flags rest).1 rest
      else ((b.join g h head brk).closeLine g h quad flags rest).1) := by
  have joined : b.Moves ok (b.join g h head brk) := Bench.join_moves f.galley head brk holds
  have filling : (b.join g h head brk).Filling ok g rest :=
    ⟨f.galley, (joined.grows f.record).1, fun o k hk => (joined.grows f.record).2 k (f.slots o k hk)⟩
  exact joined.trans (Bench.closeLine_goesOn ih filling quad flags)

theorem Bench.fill_moves (n : Nat) (b : Bench) (rest : Rest) (f : b.Filling ok g rest) :
    b.Moves ok (Bench.fill g h n b rest) := by
  induction n generalizing b rest with
  | zero => exact .refl b
  | succ n ih =>
    cases rest with
    | closed brk => exact Bench.finishBreak_moves f.galley brk
    | breakDue brk =>
      have next : b.Filling ok g (.closed brk) := ⟨f.galley, f.record, fun _ _ hk => by cases hk⟩
      have ends : b.Moves ok (if b.link.setting.line.elements.isEmpty then b.finishBreak g brk
          else if (b.closeLine g h h.quad paragraphFlags (.closed brk)).2 then
            Bench.fill g h n (b.closeLine g h h.quad paragraphFlags (.closed brk)).1 (.closed brk)
          else (b.closeLine g h h.quad paragraphFlags (.closed brk)).1) := by
        split
        · exact Bench.finishBreak_moves f.galley brk
        · exact Bench.closeLine_goesOn ih next _ _
      cases brk with
      | space => exact .refl b
      | cut => exact .refl b
      | endParagraph => exact Bench.closeLine_goesOn ih next _ _
      | quad q => exact Bench.closeLine_goesOn ih next _ _
      | galleyEnd => exact ends
      | galleyStart => exact ends
    | word w brk =>
      have whole : ok → b.Holds g w := fun o k hk => f.slots o k hk
      simp only [Bench.fill]
      split
      · refine (Bench.join_moves f.galley w brk whole).trans (ih _ _ ⟨f.galley, ?_, fun _ _ hk => by cases hk⟩)
        exact ((Bench.join_moves (ok := ok) f.galley w brk whole).grows f.record).1
      · obtain ⟨t, ht⟩ : ∃ t, t = if ladderAllows h b.link.setting.ladder then b.tryPoints g h w w.points.reverse
          else (b, none) := ⟨_, rfl⟩
        have tried : Bench.Tried ok b t.1 := by
          rw [ht]
          split
          · exact Bench.tryPoints_tried w _
          · exact .refl b
        have holds {head tail : ShapedWord} (found : t.2 = some (head, tail)) : t.1.Holds g head ∧ t.1.Holds g tail := by
          rw [ht] at found ⊢
          split at found
          · next allowed =>
            rw [if_pos allowed]
            exact Bench.tryPoints_holds f.record found
          · cases found
        have filling : t.1.Filling ok g (.word w brk) := tried.filling f
        rw [← ht]
        split
        · next head tail found =>
          obtain ⟨headHolds, tailHolds⟩ := holds found
          exact tried.moves.trans (Bench.join_closeLine_goesOn ih (rest := .word tail brk)
            ⟨filling.galley, filling.record, fun _ k hk => tailHolds k hk⟩ (fun _ => headHolds) _ _)
        · split
          · have placed := Bench.tryPlaces_tried (ok := ok) (b := t.1) (g := g) (h := h) w w.forcedPlaces.reverse
            have after := placed.filling filling
            split
            · next head tail wide found =>
              obtain ⟨headHolds, tailHolds⟩ := Bench.tryPlaces_holds filling.record found
              exact (tried.trans placed).moves.trans (Bench.join_closeLine_goesOn ih (rest := .word tail brk)
                ⟨after.galley, after.record, fun _ k hk => tailHolds k hk⟩ (fun _ => headHolds) _ _)
            · exact (tried.trans placed).moves.trans (Bench.join_closeLine_goesOn ih
                ⟨after.galley, after.record, fun _ _ hk => by cases hk⟩ (fun o k hk => after.slots o k hk) _ _)
          · exact tried.moves.trans (Bench.closeLine_goesOn ih filling _ _)

theorem Bench.fillCurrent_moves {rest : Rest}
    (slots : ok → ∀ g, b.link.setting.galley = some g → b.table.records[g] ≠ none → ∀ k ∈ rest.usedSlots, k ∈ b.useSet g) :
    b.Moves ok (b.fillCurrent rest) := by
  unfold Bench.fillCurrent
  split
  · exact .refl b
  · next g galley =>
    split
    · exact .refl b
    · next r hr =>
      have record : b.table.records[g] ≠ none := by rw [hr]; exact Option.some_ne_none r
      exact Bench.fill_moves _ b rest ⟨galley, record, fun o => slots o g galley record⟩

/-- A word of the buffer shaped and set (R66, R81). -/
theorem Bench.shape_fillCurrent_moves (galley : b.link.setting.galley = some g) (cs : List CharEntry) (ps : List Nat)
    (brk : Break) : b.Moves ok ((b.shape g cs ps).1.fillCurrent (.word (b.shape g cs ps).2 brk)) := by
  have shaped : Bench.Tried ok b (b.shape g cs ps).1 := b.shape_tried g cs ps
  refine shaped.moves.trans (Bench.fillCurrent_moves fun _ k hk record => ?_)
  rw [shaped.link] at hk
  have same : g = k := Option.some.inj (galley.symm.trans hk)
  subst same
  refine Bench.shape_holds (fun free => record ?_) cs ps
  unfold Bench.shape
  dsimp only
  rw [Bench.joinSlots_of_none free]
  exact free

/-- The word buffer emptied. -/
def Setting.clearWord (s : Setting) : Setting := { s with buffer := [], points := [] }

theorem Bench.clearWord_moves (b : Bench) : b.Moves ok (b.withSetting Setting.clearWord) :=
  (Bench.Move.setting b b.link.setting.clearWord ⟨rfl, rfl, rfl, fun _ s => s,
    fun s => ⟨s.stack, s.overflow, s.extraLead, Nat.zero_lt_succ 63, fun _ hp => absurd hp List.not_mem_nil, s.ladder⟩⟩).one

/-- A word is closed in moves from the bench whose buffer it has left, which may have held the 64th character (R61). -/
theorem Bench.closeWord_of_clearWord (b : Bench) (brk : Break) :
    (b.withSetting Setting.clearWord).Moves ok (b.closeWord brk) := by
  unfold Bench.closeWord
  dsimp only
  split
  · exact Bench.fillCurrent_moves fun _ _ _ _ _ hk => by cases hk
  · exact .refl _
  · next galley => exact Bench.shape_fillCurrent_moves (by exact galley) _ _ brk

theorem Bench.closeWord_moves (b : Bench) (brk : Break) : b.Moves ok (b.closeWord brk) :=
  b.clearWord_moves.trans (b.closeWord_of_clearWord brk)

/-- What the link holds of its galley's copy stands in the galley's font-use set. -/
def Bench.UsesHeld (b : Bench) : Prop :=
  ∀ g, b.link.setting.galley = some g → b.table.records[g] ≠ none → ∀ k ∈ b.link.setting.usedSlots, k ∈ b.useSet g

theorem Bench.releaseLine_moves (held : ok → b.UsesHeld) : b.Moves ok b.releaseLine := by
  unfold Bench.releaseLine
  split
  · next l g hl galley =>
    have within : ∀ k ∈ l.usedSlots, k ∈ b.link.setting.usedSlots := fun k hk =>
      List.mem_append_right _ (by rw [hl]; exact hk)
    obtain ⟨moves, same⟩ := Bench.takeRecord_moves (ok := ok) galley (l := l) fun k hk => .inl (within k hk)
    dsimp only
    split
    · refine moves.trans (Bench.fillCurrent_moves fun o k hk record j hj => ?_)
      have e : g = k := Option.some.inj (same.symm.trans hk)
      subst e
      by_cases before : b.table.records[g] = Option.none
      · exact absurd (Bench.takeRecord_record_none before l) record
      · refine (moves.grows before).2 j (held o g galley before j (within j ?_))
        rw [HeldLine.usedSlots_eq]
        exact List.mem_append_right _ hj
    · exact moves
  · exact .refl b

end

end Sys2Proof.Machine

/-! The parser's work on a link is a chain of moves (R37 to R58, R117). -/

namespace Sys2Proof.Machine

/-! ## The receiver's bounds (R134, R136, R138, R141) -/

theorem satAdd_le (a b : Nat) : satAdd a b ≤ Config.saturation := Nat.min_le_right _ _

theorem ReceiverSound.strays {rx : Receiver} (s : ReceiverSound rx) (n : Nat) : ReceiverSound (rx.strays n) :=
  ⟨s.ring, s.drop, satAdd_le _ _, s.disabled⟩

theorem ReceiverSound.take {rx : Receiver} (s : ReceiverSound rx) : ReceiverSound rx.take := by
  refine ⟨?_, s.drop, s.stray, fun disabled => ?_⟩
  · have short : rx.ring.tail.length ≤ rx.ring.length := by simp
    exact short.trans s.ring
  · show (if rx.recv ≠ .disabled ∧ _ then true else rx.readyOut) = false
    rw [if_neg fun enabled => enabled.1 disabled]
    exact s.disabled disabled

theorem ReceiverSound.afterBreak {rx : Receiver} (s : ReceiverSound rx) : ReceiverSound rx.afterBreak :=
  ⟨Nat.zero_le _, Nat.zero_le _, s.stray, fun disabled => by cases disabled⟩

/-! ## Which states set a galley -/

/-- The parser states in which MEASURE is taken. -/
def ParserState.takesMeasure (p : ParserState) : Prop := p = .idle ∨ p = .inGalley ∨ p = .skip

/-- The parser states of a link that sets no galley, whatever it does next. -/
def ParserState.clear (p : ParserState) : Prop := p = .idle ∨ p = .header ∨ p = .skip ∨ p = .waitRecord

theorem Setting.not_sets_of_clear {x : Setting} (h : x.parser.clear) : ¬ x.sets := by
  unfold Setting.sets
  rcases h with h | h | h | h <;> simp [h]

theorem Setting.sets_of_inGalley {x : Setting} (h : x.parser = .inGalley) : x.sets := .inl h

/-- A galley set in a state that takes MEASURE is set IN GALLEY. -/
theorem Setting.sets.inGalley {x : Setting} (s : x.sets) (h : x.parser.takesMeasure) : x.parser = .inGalley := by
  rcases h with h | h | h
  · exact absurd s (Setting.not_sets_of_clear (.inl h))
  · exact h
  · exact absurd s (Setting.not_sets_of_clear (.inr (.inr (.inl h))))

theorem returnOf_inGalley {p : ParserState} (h : p = .inGalley) : returnOf p = .inGalley := by rw [h]; rfl

/-- A change of the parser's own fields and of the context. -/
theorem QuietSetting.calm {x y : Setting}
    (e : y = { x with parser := y.parser, ret := y.ret, resume := y.resume, header := y.header, heldFlags := y.heldFlags
                      pending := y.pending, ctx := y.ctx, markerDue := y.markerDue })
    (sets : x.galley ≠ none → x.sets → y.sets) : QuietSetting x y where
  galley := by rw [e]
  line := by rw [e]
  held := by rw [e]
  sets := sets
  bounds s := by
    rw [e]
    exact ⟨s.stack, s.overflow, s.extraLead, s.buffer, s.points, s.ladder⟩

/-- A change that leaves the parser's state, and so the setting of the galley, as it was. -/
theorem QuietSetting.still {x y : Setting}
    (e : y = { x with header := y.header, heldFlags := y.heldFlags, pending := y.pending, ctx := y.ctx
                      markerDue := y.markerDue }) : QuietSetting x y := by
  refine .calm ?_ fun _ s => ?_
  · rw [e]
  · rw [e]
    exact s

theorem GivenUp.giveUpGalley (x : Setting) : GivenUp x x.giveUpGalley :=
  ⟨rfl, rfl, rfl, fun s => ⟨Nat.zero_le _, Nat.zero_le _, Nat.zero_le _, Nat.zero_lt_succ 63,
    fun _ hp => absurd hp List.not_mem_nil, s.ladder⟩⟩

/-- The parser sent on after its galley was given up. -/
theorem GivenUp.calm {x y : Setting}
    (e : y = { x.giveUpGalley with parser := y.parser, ret := y.ret, resume := y.resume, header := y.header
                                   heldFlags := y.heldFlags, pending := y.pending, markerDue := y.markerDue }) :
    GivenUp x y where
  galley := by rw [e]; rfl
  line := by rw [e]; rfl
  held := by rw [e]; rfl
  bounds s := by
    have given := (GivenUp.giveUpGalley x).bounds s
    rw [e]
    exact ⟨given.stack, given.overflow, given.extraLead, given.buffer, given.points, given.ladder⟩

theorem GivenUp.idle (x : Setting) : GivenUp x idleSetting :=
  ⟨rfl, rfl, rfl, fun _ => ⟨Nat.zero_le _, Nat.zero_le _, Nat.zero_le _, Nat.zero_lt_succ 63,
    fun _ hp => absurd hp List.not_mem_nil, Nat.zero_le _⟩⟩

section
variable {ok : Prop} {b c : Bench} {g : Fin 32}

theorem Bench.quiet_moves {f : Setting → Setting} (h : QuietSetting b.link.setting (f b.link.setting)) :
    b.Moves ok (b.withSetting f) := (Bench.Move.setting b _ h).one

theorem Bench.giveUp_moves {f : Setting → Setting} (h : GivenUp b.link.setting (f b.link.setting)) :
    b.Moves ok (b.withSetting f) := (Bench.Move.giveUp b _ h).one

/-! ## Flags, stray words and the measure slot -/

theorem Bench.raise_moves (b : Bench) (f : GalleyFlag) : b.Moves ok (b.raise f) := by
  unfold Bench.raise
  split
  · exact .refl b
  · next g _ => exact (Bench.Move.flags b g _ (flagsOnly_raiseFlag f)).one

theorem Bench.raiseIf_moves (b : Bench) (c : Bool) (f : GalleyFlag) : b.Moves ok (b.raiseIf c f) := by
  unfold Bench.raiseIf
  split
  · exact b.raise_moves f
  · exact .refl b

theorem Bench.strays_moves (b : Bench) (n : Nat) : b.Moves ok (b.strays n) :=
  (Bench.Move.receiver b (b.link.rx.strays n) fun s => s.strays n).one

theorem Bench.withRequest_moves (b : Bench) (f : MeasureRequest → MeasureRequest) : b.Moves ok (b.withRequest f) :=
  (Bench.Move.measure b _).one

theorem Bench.openMeasure_moves (takes : b.parser.takesMeasure) : b.Moves ok b.openMeasure := by
  refine Bench.Moves.then (Bench.quiet_moves (b := b) (.calm rfl fun _ s => ?_)) (.measure _ (.gathering newRequest))
  exact .inr (.inr (.inr (.inl ⟨rfl, returnOf_inGalley (s.inGalley takes)⟩)))

theorem Bench.closeMeasure_moves (hp : b.parser = .inMeasure) : b.Moves ok b.closeMeasure := by
  refine Bench.Moves.then (Bench.quiet_moves (b := b) (.calm rfl fun _ s => .inl ?_)) (.measure _ (.waiting _))
  have back : b.link.setting.ret = .inGalley := by
    unfold Bench.parser at hp
    simpa [Setting.sets, hp] using s
  show b.link.setting.ret.parser = .inGalley
  rw [back]
  rfl

/-! ## Headers (R38 to R41, R57, R111) -/

theorem Bench.goto_moves {p : ParserState} (clear : b.parser.clear) : b.Moves ok (b.goto p) :=
  Bench.quiet_moves (.calm rfl fun _ s => absurd s (Setting.not_sets_of_clear clear))

theorem Bench.openHeader_moves (clear : b.link.setting.galley = none ∨ b.parser.clear) : b.Moves ok b.openHeader := by
  refine Bench.quiet_moves (.calm rfl fun current s => ?_)
  rcases clear with given | clear
  · exact absurd given current
  · exact absurd s (Setting.not_sets_of_clear clear)

theorem Bench.allocate_moves (free : b.table.records[g] = none) : b.Moves ok (b.allocate g) :=
  (Bench.Move.allocate b g free).one.trans (Bench.raiseIf_moves _ _ _)

theorem GalleyTable.lowestFree_free {t : GalleyTable} (h : t.lowestFree = some g) : t.records[g] = none := by
  have found := List.find?_some h
  simpa using found

theorem Bench.completeHeader_moves (clear : b.parser.clear) : b.Moves ok b.completeHeader := by
  have adjusted : b.Moves ok (b.withSetting fun s =>
      { s with heldFlags := addFlagIf (spacesAdjusted s.header) s.heldFlags .clamped }) := Bench.quiet_moves (.still rfl)
  unfold Bench.completeHeader
  dsimp only
  split
  · next g free => exact adjusted.trans (Bench.allocate_moves (GalleyTable.lowestFree_free free))
  · exact adjusted.trans (Bench.goto_moves clear)

theorem Bench.takeHeader_moves (clear : b.parser.clear) (w : Option Word) : b.Moves ok (b.takeHeader w) := by
  unfold Bench.takeHeader
  dsimp only
  split
  · exact (Bench.quiet_moves (.still rfl)).trans (Bench.completeHeader_moves clear)
  · exact Bench.quiet_moves (.still rfl)

theorem Bench.damageHeader_moves (clear : b.parser.clear) : b.Moves ok b.damageHeader :=
  (Bench.quiet_moves (.still rfl)).trans (Bench.completeHeader_moves clear)

/-! ## Damage markers (R57) -/

theorem Bench.actMarker_moves (b : Bench) : b.Moves ok b.actMarker := by
  have dropped : b.Moves ok (b.withSetting fun s => { s with markerDue := false }) := Bench.quiet_moves (.still rfl)
  refine dropped.trans ?_
  unfold Bench.actMarker
  dsimp only
  split
  · next hp => exact Bench.damageHeader_moves (.inr (.inl hp))
  · exact (Bench.quiet_moves (.still rfl)).trans (Bench.raise_moves _ _)
  · next hp => exact (Bench.withRequest_moves _ _).trans (Bench.closeMeasure_moves hp)
  · exact Bench.quiet_moves (.still rfl)
  · exact Bench.quiet_moves (.still rfl)
  · exact Bench.quiet_moves (.still rfl)
  · exact Bench.quiet_moves (.still rfl)
  · exact Bench.quiet_moves (.still rfl)
  · exact .refl _

theorem Bench.actDueMarker_moves (b : Bench) : b.Moves ok b.actDueMarker := by
  unfold Bench.actDueMarker
  split
  · exact b.actMarker_moves
  · exact .refl b

/-! ## Kills and the galley commands (R53, R56, R123) -/

/-- A kill of the link's current galley, which the parser gives up (R56). -/
theorem Bench.killParser_moves (current : b.link.setting.galley = some g) (o : GalleyOutcome) :
    b.Moves ok (Bench.killParser { b with table := b.table.kill g o }) := by
  have gives (f : Setting → Setting) (h : GivenUp b.link.setting (f b.link.setting)) :
      b.Moves ok (Bench.withSetting { b with table := b.table.kill g o } f) :=
    (Bench.Move.kill b g o (f b.link.setting) (.inr current) (.inl h)).one
  have stays (clear : b.parser.clear) : b.Moves ok { b with table := b.table.kill g o } :=
    (Bench.Move.kill b g o b.link.setting (.inr current)
      (.inr ⟨rfl, fun _ s => absurd s (Setting.not_sets_of_clear clear)⟩)).one
  have header : b.Moves ok
      ((Bench.withSetting { b with table := b.table.kill g o } Setting.giveUpGalley).openHeader.actDueMarker) :=
    ((gives _ (.giveUpGalley _)).trans (Bench.openHeader_moves (.inl rfl))).trans (Bench.actDueMarker_moves _)
  unfold Bench.killParser
  dsimp only
  split
  · split
    · exact header
    · exact gives _ (.calm rfl)
  · split
    · exact header
    · exact gives _ (.calm rfl)
  · exact gives _ (.calm rfl)
  · exact gives _ (.calm rfl)
  · exact gives _ (.calm rfl)
  · next hp => exact stays (.inl hp)
  · next hp => exact stays (.inr (.inl hp))
  · next hp => exact stays (.inr (.inr (.inl hp)))
  · next hp => exact stays (.inr (.inr (.inr hp)))

theorem Bench.killGalley_moves {r : Galley} (hr : b.table.records[g] = some r) (own : r.link = b.id) :
    b.Moves ok (b.killGalley g) := by
  unfold Bench.killGalley
  simp only [hr]
  split
  · next current =>
    exact Bench.killParser_moves (by simpa using (Bool.and_eq_true_iff.1 current).1) _
  · next other =>
    refine (Bench.Move.kill b g .killed b.link.setting (.inl ⟨r, hr, own⟩) (.inr ⟨rfl, fun current _ q hq => ?_⟩)).one
    rw [hr] at hq
    injection hq with hq
    subst hq
    simpa [current] using other

theorem GalleyTable.target_link {t : GalleyTable} {i : Fin 4} {n : Nat} (h : t.target i n = some g) :
    ∃ r, t.records[g] = some r ∧ r.link = i := by
  have found := List.find?_some h
  cases hr : t.records[g] with
  | none => simp [hr] at found
  | some r => exact ⟨r, rfl, by simp [hr] at found; exact found.1.1⟩

theorem Bench.galleyCommand_moves (b : Bench) (code : Code) (params : List (Option Word)) :
    b.Moves ok (b.galleyCommand code params) := by
  unfold Bench.galleyCommand
  dsimp only
  split
  · split
    · exact b.strays_moves _
    · split
      · exact b.strays_moves _
      · next g target =>
        obtain ⟨r, hr, own⟩ := GalleyTable.target_link target
        split
        · exact Bench.killGalley_moves hr own
        · exact (Bench.Move.resume b g ⟨r, hr, own⟩).one
        · exact (Bench.Move.setClass b g _).one
        · exact .refl b
  · exact b.strays_moves _

/-! ## Context and parameters (R43 to R47, R51, R52) -/

theorem Bench.withCtx_moves (b : Bench) (f : Ctx → Ctx) : b.Moves ok (b.withCtx f) := Bench.quiet_moves (.still rfl)

theorem Bench.damagedParam_moves (b : Bench) : b.Moves ok b.damagedParam :=
  (b.raise_moves _).trans (Bench.raise_moves _ _)

theorem Bench.setFont_moves (b : Bench) (w : Option Word) : b.Moves ok (b.setFont w) := by
  have noted : b.Moves ok (if w.isNone then b.damagedParam else b) := by
    split
    · exact b.damagedParam_moves
    · exact .refl b
  unfold Bench.setFont
  dsimp only
  generalize (if w.isNone then b.damagedParam else b) = c at noted ⊢
  split
  · exact noted.trans (Bench.withCtx_moves _ _)
  · exact noted.trans (Bench.raise_moves _ _)

theorem Bench.clampParam_moves (b : Bench) (w : Option Word) (clamp : Nat → Nat × Bool) (d : Nat) :
    b.Moves ok (b.clampParam w clamp d).1 := by
  cases w with
  | none => exact b.damagedParam_moves
  | some w => exact b.raiseIf_moves _ _

theorem Bench.setTrack_moves (b : Bench) (w : Option Word) : b.Moves ok (b.setTrack w) := by
  cases w with
  | none => exact b.damagedParam_moves.trans (Bench.withCtx_moves _ _)
  | some w => exact (b.raiseIf_moves _ _).trans (Bench.withCtx_moves _ _)

theorem Bench.addExtraLead_moves (b : Bench) (w : Option Word) : b.Moves ok (b.addExtraLead w) := by
  have raised := (b.clampParam_moves (ok := ok) w (clampAbove 384 384) 0).trans (Bench.raiseIf_moves _
    (decide (384 < b.link.setting.extraLead + (b.clampParam w (clampAbove 384 384) 0).2)) .clamped)
  unfold Bench.addExtraLead
  refine raised.trans (Bench.quiet_moves ?_)
  exact ⟨rfl, rfl, rfl, fun _ s => s,
    fun s => ⟨s.stack, s.overflow, Nat.min_le_right _ _, s.buffer, s.points, s.ladder⟩⟩

theorem Bench.actParams_moves (b : Bench) (code : Code) (params : List (Option Word)) :
    b.Moves ok (b.actParams code params) := by
  unfold Bench.actParams
  dsimp only
  split
  case h_1 => exact b.setFont_moves _
  case h_2 => exact (b.clampParam_moves _ _ _).trans (Bench.withCtx_moves _ _)
  case h_3 => exact (b.clampParam_moves _ _ _).trans (Bench.withCtx_moves _ _)
  case h_4 => exact b.setTrack_moves _
  case h_5 => exact b.addExtraLead_moves _
  case h_6 | h_7 | h_8 => exact b.galleyCommand_moves _ _
  all_goals exact .refl b

theorem Bench.openContext_moves (b : Bench) : b.Moves ok b.openContext := by
  unfold Bench.openContext
  dsimp only
  split
  · next room =>
    exact Bench.quiet_moves ⟨rfl, rfl, rfl, fun _ s => s,
      fun s => ⟨Nat.succ_le_of_lt room, s.overflow, s.extraLead, s.buffer, s.points, s.ladder⟩⟩
  · exact (Bench.quiet_moves ⟨rfl, rfl, rfl, fun _ s => s,
      fun s => ⟨s.stack, Nat.min_le_right _ _, s.extraLead, s.buffer, s.points, s.ladder⟩⟩).trans (Bench.raise_moves _ _)

theorem Bench.closeContext_moves (b : Bench) : b.Moves ok b.closeContext := by
  unfold Bench.closeContext
  dsimp only
  split
  · exact Bench.quiet_moves ⟨rfl, rfl, rfl, fun _ s => s,
      fun s => ⟨s.stack, (Nat.sub_le _ _).trans s.overflow, s.extraLead, s.buffer, s.points, s.ladder⟩⟩
  · split
    · exact b.raise_moves _
    · next c rest stack =>
      refine Bench.quiet_moves ⟨rfl, rfl, rfl, fun _ s => s,
        fun s => ⟨?_, s.overflow, s.extraLead, s.buffer, s.points, s.ladder⟩⟩
      have bound := s.stack
      rw [stack] at bound
      exact (Nat.le_succ rest.length).trans bound

/-! ## Copy (R42, R45, R61) -/

theorem Bench.hyphenPoint_moves (b : Bench) : b.Moves ok b.hyphenPoint := by
  refine Bench.quiet_moves ?_
  split
  · exact .still rfl
  · next new =>
    refine ⟨rfl, rfl, rfl, fun _ s => s, fun s => ⟨s.stack, s.overflow, s.extraLead, s.buffer, fun p hp => ?_, s.ladder⟩⟩
    have filled : 1 ≤ b.link.setting.buffer.length := by
      rw [Nat.one_le_iff_ne_zero]
      exact fun empty => new (.inl (List.isEmpty_iff.2 (List.length_eq_zero_iff.1 empty)))
    rcases List.mem_append.1 hp with hp | hp
    · exact s.points p hp
    · rw [List.mem_singleton.1 hp]
      exact ⟨filled, le_refl _⟩

theorem Bench.appendChar_moves (b : Bench) (c : CharEntry) : b.Moves ok (b.appendChar c) := by
  unfold Bench.appendChar
  dsimp only
  split
  · have emptied : (((b.withSetting fun s => { s with buffer := s.buffer ++ [c] }).raise .longWord).withSetting
        Setting.clearWord) = (b.raise .longWord).withSetting Setting.clearWord := by
      unfold Bench.raise
      dsimp only [Bench.withSetting]
      split <;> rfl
    have closes : b.Moves ok (((b.withSetting fun s => { s with buffer := s.buffer ++ [c] }).raise .longWord).withSetting
        Setting.clearWord) := by
      rw [emptied]
      exact (b.raise_moves _).trans (Bench.clearWord_moves _)
    exact closes.trans (Bench.closeWord_of_clearWord _ _)
  · next short =>
    refine Bench.quiet_moves ⟨rfl, rfl, rfl, fun _ s => s,
      fun s => ⟨s.stack, s.overflow, s.extraLead, Nat.lt_of_not_le short, fun p hp => ?_, s.ladder⟩⟩
    obtain ⟨low, high⟩ := s.points p hp
    exact ⟨low, high.trans (by simp)⟩

theorem Bench.takeText_moves (b : Bench) (w : Word) : b.Moves ok (b.takeText w) := by
  unfold Bench.takeText
  dsimp only
  split
  · exact b.closeWord_moves _
  · exact b.appendChar_moves _

theorem Bench.takeDamaged_moves (b : Bench) : b.Moves ok b.takeDamaged :=
  (b.raise_moves _).trans (Bench.appendChar_moves _ _)

/-! ## Codes (R37, R38, R48 to R56) -/

theorem Bench.pend_moves (b : Bench) (code : Code) (passOver : Bool) : b.Moves ok (b.pend code passOver) := by
  unfold Bench.pend
  split
  · exact .refl b
  · exact Bench.quiet_moves (.still rfl)

theorem Bench.codeInGalley_moves (hp : b.parser = .inGalley) (c : Code) : b.Moves ok (b.codeInGalley c) := by
  match c with
  | .galleyStart => exact (b.raise_moves _).trans (Bench.closeWord_moves _ _)
  | .galleyEnd | .endParagraph | .quadLeft | .quadRight | .quadCentre => exact b.closeWord_moves _
  | .font | .pointSize | .setSize | .track | .extraLead | .kill | .resume | .class => exact b.pend_moves _ _
  | .ligaturesOn | .ligaturesOff => exact b.withCtx_moves _
  | .openContext => exact b.openContext_moves
  | .closeContext => exact b.closeContext_moves
  | .hyphenPoint => exact b.hyphenPoint_moves
  | .measure => exact Bench.openMeasure_moves (.inr (.inl hp))
  | .measureEnd | .undefined => exact b.raise_moves _

theorem Bench.codeInIdle_moves (hp : b.parser = .idle) (c : Code) : b.Moves ok (b.codeInIdle c) := by
  match c with
  | .galleyStart => exact Bench.openHeader_moves (.inr (.inl hp))
  | .measure => exact Bench.openMeasure_moves (.inl hp)
  | .kill | .resume | .class => exact b.pend_moves _ _
  | .font | .pointSize | .setSize | .track | .extraLead => exact (b.strays_moves 1).trans (Bench.pend_moves _ _ _)
  | .galleyEnd | .ligaturesOn | .ligaturesOff | .openContext | .closeContext | .hyphenPoint | .endParagraph | .quadLeft
  | .quadRight | .quadCentre | .measureEnd | .undefined => exact b.strays_moves 1

theorem Bench.codeInSkip_moves (hp : b.parser = .skip) (c : Code) : b.Moves ok (b.codeInSkip c) := by
  match c with
  | .galleyStart => exact Bench.openHeader_moves (.inr (.inr (.inr (.inl hp))))
  | .galleyEnd => exact Bench.goto_moves (.inr (.inr (.inl hp)))
  | .measure => exact Bench.openMeasure_moves (.inr (.inr hp))
  | .kill | .resume | .class | .font | .pointSize | .setSize | .track | .extraLead => exact b.pend_moves _ _
  | .ligaturesOn | .ligaturesOff | .openContext | .closeContext | .hyphenPoint | .endParagraph | .quadLeft
  | .quadRight | .quadCentre | .measureEnd | .undefined => exact .refl b

theorem Bench.takeCode_moves (b : Bench) (c : Code) : b.Moves ok (b.takeCode c) := by
  unfold Bench.takeCode
  split
  · next hp => exact Bench.codeInIdle_moves hp c
  · next hp => exact Bench.codeInGalley_moves hp c
  · next hp => exact Bench.codeInSkip_moves hp c
  all_goals exact .refl b

theorem Bench.sortInIdle_moves (hp : b.parser = .idle) (w : Option Word) : b.Moves ok (b.sortInIdle w) := by
  unfold Bench.sortInIdle
  split
  · exact .refl b
  · exact b.strays_moves 1
  · exact b.strays_moves 1
  · exact Bench.codeInIdle_moves hp _

theorem Bench.sortInGalley_moves (hp : b.parser = .inGalley) (w : Option Word) : b.Moves ok (b.sortInGalley w) := by
  unfold Bench.sortInGalley
  split
  · exact .refl b
  · exact b.takeDamaged_moves
  · exact b.takeText_moves _
  · exact Bench.codeInGalley_moves hp _

theorem Bench.sortInSkip_moves (hp : b.parser = .skip) (w : Option Word) : b.Moves ok (b.sortInSkip w) := by
  unfold Bench.sortInSkip
  split
  · exact .refl b
  · exact .refl b
  · exact .refl b
  · exact Bench.codeInSkip_moves hp _

theorem Bench.sortInMeasure_moves (hp : b.parser = .inMeasure) (w : Option Word) : b.Moves ok (b.sortInMeasure w) := by
  have truncated : b.Moves ok (b.flagRequest .truncated).closeMeasure :=
    (b.withRequest_moves _).trans (Bench.closeMeasure_moves hp)
  unfold Bench.sortInMeasure
  split
  · exact .refl b
  · exact b.withRequest_moves _
  · exact b.withRequest_moves _
  · exact Bench.closeMeasure_moves hp
  · exact truncated.trans (Bench.takeCode_moves _ _)
  · exact truncated.trans (Bench.takeCode_moves _ _)
  · exact (b.withRequest_moves _).trans (Bench.pend_moves _ _ _)

/-! ## Words (R37) -/

theorem Bench.takeParam_moves (b : Bench) (p : PendingCode) (w : Option Word) : b.Moves ok (b.takeParam p w) := by
  have pended : b.Moves ok (b.withSetting fun s => { s with
      pending := if decide (paramCount p.code ≤ (p.params ++ [w]).length) then none
        else some { p with params := p.params ++ [w] } }) := Bench.quiet_moves (.still rfl)
  unfold Bench.takeParam
  dsimp only
  generalize (b.withSetting _) = c at pended ⊢
  refine pended.trans ?_
  split
  · exact .refl c
  · split
    · split
      · split
        · exact c.galleyCommand_moves _ _
        · exact .refl c
      · exact c.strays_moves 1
    · split
      · exact c.actParams_moves _ _
      · exact .refl c
    · split
      · exact c.galleyCommand_moves _ _
      · exact .refl c
    all_goals exact .refl c

theorem Bench.dealOutsideHeader_moves (b : Bench) (w : Option Word) : b.Moves ok (b.dealOutsideHeader w) := by
  unfold Bench.dealOutsideHeader
  split
  · exact b.takeParam_moves _ w
  · split
    · next hp => exact Bench.sortInIdle_moves hp w
    · next hp => exact Bench.sortInGalley_moves hp w
    · next hp => exact Bench.sortInSkip_moves hp w
    · next hp => exact Bench.sortInMeasure_moves hp w
    all_goals exact .refl b

theorem Bench.dealWord_moves (b : Bench) (w : Option Word) : b.Moves ok (b.dealWord w) := by
  unfold Bench.dealWord
  split
  · next hp => exact Bench.takeHeader_moves (.inr (.inl hp)) w
  · split
    · exact b.withRequest_moves _
    · exact b.dealOutsideHeader_moves w
  · exact b.dealOutsideHeader_moves w
  · exact b.dealOutsideHeader_moves w
  · exact b.dealOutsideHeader_moves w
  all_goals exact .refl b

/-! ## Turns and breaks (R58, R117, R134) -/

theorem Bench.measureMustWait_takesMeasure {e : RingEntry} (h : b.measureMustWait e = true) : b.parser.takesMeasure := by
  unfold Bench.measureMustWait at h
  simp only [Bool.and_eq_true, Bool.or_eq_true, decide_eq_true_eq] at h
  obtain ⟨⟨⟨(h | h) | h, -⟩, -⟩, -⟩ := h
  · exact .inl h
  · exact .inr (.inl h)
  · exact .inr (.inr h)

theorem Bench.takeEntry_moves (b : Bench) (e : RingEntry) : b.Moves ok (b.takeEntry e) := by
  unfold Bench.takeEntry
  split
  · next waits =>
    refine Bench.quiet_moves (.calm rfl fun _ s => .inr (.inr (.inr (.inr ⟨rfl, ?_⟩))))
    exact returnOf_inGalley (s.inGalley (Bench.measureMustWait_takesMeasure waits))
  · have taken : b.Moves ok { b with link := { b.link with rx := b.link.rx.take } } :=
      (Bench.Move.receiver b b.link.rx.take fun s => s.take).one
    have counted : b.Moves ok (if Bench.parser { b with link := { b.link with rx := b.link.rx.take } } = .idle then
        Bench.strays { b with link := { b.link with rx := b.link.rx.take } } e.drop
      else { b with link := { b.link with rx := b.link.rx.take } }) := by
      split
      · exact taken.trans (Bench.strays_moves _ _)
      · exact taken
    dsimp only
    split
    · exact (counted.trans (Bench.dealWord_moves _ _)).trans (Bench.actMarker_moves _)
    · exact counted.trans (Bench.dealWord_moves _ _)

theorem Bench.turn_moves (held : ok → b.UsesHeld) (h : b.turn = some c) : b.Moves ok c := by
  have ofRing {x : Option RingEntry} (e : (x.map fun e => b.takeEntry e) = some c) : b.Moves ok c := by
    obtain ⟨entry, -, rfl⟩ := Option.map_eq_some_iff.1 e
    exact b.takeEntry_moves entry
  have releases : b.Moves ok b.releaseLine.actDueMarker :=
    (Bench.releaseLine_moves held).trans (Bench.actDueMarker_moves _)
  unfold Bench.turn at h
  split at h
  · obtain ⟨g, free, rfl⟩ := Option.map_eq_some_iff.1 h
    exact Bench.allocate_moves (GalleyTable.lowestFree_free free)
  · split at h
    · cases h
    · injection h with h
      exact h ▸ releases
  · split at h
    · cases h
    · split at h
      · cases h
      · injection h with h
        exact h ▸ releases
  · next hp =>
    split at h
    · injection h with h
      subst h
      refine Bench.Moves.trans (Bench.quiet_moves (.calm rfl fun _ s => .inl ?_)) (Bench.takeEntry_moves _ _)
      have back : b.link.setting.resume = .inGalley := by
        unfold Bench.parser at hp
        simpa [Setting.sets, hp] using s
      show b.link.setting.resume.parser = .inGalley
      rw [back]
      rfl
    · cases h
  all_goals exact ofRing h

/-- The setting context given up at a break, with the kill of the current galley if it is not ended (R58, R123). -/
theorem Bench.breakLink_moves (b : Bench) : b.Moves ok b.breakLink := by
  obtain ⟨m, hm⟩ : ∃ m : Bench, m = { b with link := { b.link with rx := b.link.rx.afterBreak, measure := .empty } } := ⟨_, rfl⟩
  have first : b.Moves ok m :=
    hm ▸ (Bench.Move.receiver b b.link.rx.afterBreak fun s => s.afterBreak).one.then (.measure _ .empty)
  have gives : m.Moves ok (m.withSetting fun _ => idleSetting) := Bench.giveUp_moves (.idle _)
  refine first.trans ?_
  unfold Bench.breakLink
  subst hm
  dsimp only
  split
  · exact gives
  · next g current =>
    split
    · exact gives
    · split
      · exact gives
      · exact (Bench.Move.kill { b with link := { b.link with rx := b.link.rx.afterBreak, measure := .empty } } g .abandoned
          idleSetting (.inr current) (.inl (.idle _))).one

end

end Sys2Proof.Machine

/-! Invariants of galleys, slots, links and film: what an event does to them, apart from the lines and counters around them. -/

namespace Sys2Proof.Machine

/-! ## Events by what they do to the work in hand -/

/-- Two states with the same slots, install copy, galleys, links and Exposure Controller. -/
structure SameWork (s t : State) : Prop where
  slots : t.slots = s.slots
  copy : t.copy = s.copy
  table : t.table = s.table
  links : t.links = s.links
  imaging : t.imaging = s.imaging

/-- A change of the Exposure Controller that leaves the walk's galley alone, keeps or empties the mirror, and brings no record
that closes a galley. -/
structure QuietUnit (m m' : Imaging) : Prop where
  galley : m'.galley = m.galley
  mirror : m'.mirror = m.mirror ∨ m'.mirror = []
  out : ∀ o, m'.out = some o → o.closes → m.out = some o

/-- A library reset before the answer and the reactions (R161). -/
def State.workReset (s : State) : State :=
  { s with slots := s.slots.map resetSlot, copy := none, table := emptyTable, links := s.links.map Link.afterLibraryReset
           imaging := s.imaging.afterLibraryReset }

/-- A predicate of the work in hand that each operation on it keeps. -/
structure KeptByWork (P : State → Prop) : Prop where
  frame : ∀ {s t}, P s → SameWork s t → P t
  settle : ∀ s, P s → P s.settle
  powerOn : ∀ s, P s → P s.powerOn
  reset : ∀ s, P s → P s.workReset
  startCopy : ∀ s i b o, lowestEmpty s.slots = some i → anyLoading s.slots = false → P s → P (s.startCopy i b o)
  withdraw : ∀ s i n, resolveResident s.slots n = some i → P s → P (s.withdraw i)
  copyRead : ∀ s job, s.copy = some job → P s → P (s.copyRead job)
  loseSlots : ∀ s p, P s → P (s.loseSlots p slotIds)
  cutFetch : ∀ s p, P s → P (s.cutFetch p)
  moves : ∀ s i c, (∀ ok : Prop, (ok → (s.bench i).UsesHeld) → (s.bench i).Moves ok c) → P s → P (s.putBench c)
  receiver : ∀ s i (f : Receiver → Receiver), (∀ rx, ReceiverSound rx → ReceiverSound (f rx)) → P s →
    P (s.onLink i fun l => { l with rx := f l.rx })
  readyOn : ∀ s i, P s → P (s.onLink i fun l => { l with tx := l.tx.readyOn })
  readyOff : ∀ s i, P s → P (s.onLink i fun l => { l with tx := l.tx.readyOff })
  nextByte : ∀ s i, s.links[i].tx.shift ≠ none → s.links[i].tx.buffer ≠ [] → P s →
    P (s.onLink i fun l => { l with tx := l.tx.nextByte })
  completeReply : ∀ s i, s.links[i].tx.shift ≠ none → P s → P (s.completeReply i)
  acked : ∀ s o, s.imaging.out = some o → o.void = false → P s → P (s.putFilm (s.film.acked o.record))
  fault : ∀ s, P s → P (s.putFilm s.film.fault)
  unit : ∀ s m, QuietUnit s.imaging m → P s → P { s with imaging := m }

/-! ## Receivers and units (R132 to R140, R163, R172, R173) -/

theorem markTail_length (l : List RingEntry) : (markTail l).length = l.length := by
  induction l with
  | nil => rfl
  | cons e l ih =>
    cases l with
    | nil => rfl
    | cons e' l => simpa [markTail] using ih

theorem ReceiverSound.offer {rx : Receiver} (s : ReceiverSound rx) (w : Option Word) : ReceiverSound (rx.offer w) := by
  unfold Receiver.offer
  split
  · exact s
  · next receiving =>
    split
    · next room =>
      refine ⟨by simpa [Receiver.store] using room, s.drop, s.stray, fun disabled => ?_⟩
      exact absurd (receiving.symm.trans disabled) (by decide)
    · exact ⟨by simpa [markTail_length] using s.ring, Nat.le_add_left 1 _, s.stray, fun disabled => by cases disabled⟩
  · next discard =>
    split
    · next ends =>
      exact ⟨by simpa [Receiver.store] using ends.2, Nat.zero_le _, s.stray, fun disabled => by cases disabled⟩
    · exact ⟨s.ring, satAdd_le _ _, s.stray, fun disabled => absurd (discard.symm.trans disabled) (by decide)⟩

theorem ReceiverSound.takeByte {rx : Receiver} (s : ReceiverSound rx) (b : Byte) (sound : Bool) :
    ReceiverSound (rx.takeByte b sound) := by
  unfold Receiver.takeByte
  split
  · exact ⟨s.ring, s.drop, s.stray, s.disabled⟩
  · exact ReceiverSound.offer (rx := { rx with pair := .highNext }) ⟨s.ring, s.drop, s.stray, s.disabled⟩ _

theorem ReceiverSound.byte {rx : Receiver} (s : ReceiverSound rx) (b : Byte) (pe fe : Bool) :
    ReceiverSound (rx.byte b pe fe) := by
  unfold Receiver.byte
  split
  · exact s
  · split
    · exact ⟨s.ring, s.drop, s.stray, s.disabled⟩
    · exact s.takeByte _ _

theorem ReceiverSound.toMark {rx : Receiver} (s : ReceiverSound rx) : ReceiverSound rx.toMark := by
  unfold Receiver.toMark
  dsimp only
  split
  · exact ⟨s.ring, s.drop, s.stray, s.disabled⟩
  · split
    · exact ⟨s.ring, s.drop, s.stray, s.disabled⟩
    · exact ReceiverSound.takeByte (rx := { rx with breakLatch := false, framing := none }) ⟨s.ring, s.drop, s.stray, s.disabled⟩ _ _

theorem ReceiverSound.enable {rx : Receiver} (s : ReceiverSound rx) : ReceiverSound rx.enable := by
  unfold Receiver.enable
  split
  · refine ⟨s.ring, s.drop, s.stray, fun disabled => ?_⟩
    dsimp only at disabled
    split at disabled <;> cases disabled
  · exact s

theorem ReceiverSound.disable {rx : Receiver} (s : ReceiverSound rx) : ReceiverSound rx.disable := by
  unfold Receiver.disable
  split
  · exact s
  · exact ⟨s.ring, s.drop, s.stray, fun _ => rfl⟩

theorem ReceiverSound.control {rx : Receiver} (s : ReceiverSound rx) (rate : Rate) (enable clear : Bool) :
    ReceiverSound (rx.control rate enable clear) := by
  have rated : ReceiverSound { rx with rate := rate } := ⟨s.ring, s.drop, s.stray, s.disabled⟩
  have set : ReceiverSound (if enable then Receiver.enable { rx with rate := rate } else Receiver.disable { rx with rate := rate }) := by
    split
    · exact rated.enable
    · exact rated.disable
  unfold Receiver.control
  dsimp only
  split
  · exact ⟨set.ring, set.drop, Nat.zero_le _, set.disabled⟩
  · exact set

theorem Receiver.afterLibraryReset_sound (rx : Receiver) : ReceiverSound rx.afterLibraryReset := by
  refine ⟨Nat.zero_le _, Nat.zero_le _, Nat.zero_le _, fun disabled => ?_⟩
  have before : rx.recv = .disabled := by
    by_contra enabled
    unfold Receiver.afterLibraryReset at disabled
    rw [if_neg enabled] at disabled
    cases disabled
  simp [Receiver.afterLibraryReset, before]

theorem QuietUnit.sendCacheClear (m : Imaging) : QuietUnit m m.sendCacheClear :=
  ⟨rfl, .inr rfl, fun o h c => by
    injection h with h
    obtain ⟨-, c | c⟩ := h ▸ c <;> cases c⟩

/-- A change of the unit's state and ready line. -/
theorem QuietUnit.line (m : Imaging) (unit : UnitState) (ready : Bool) : QuietUnit m { m with unit := unit, ready := ready } :=
  ⟨rfl, .inl rfl, fun _ h _ => h⟩

theorem QuietUnit.trans {m m' m'' : Imaging} (a : QuietUnit m m') (b : QuietUnit m' m'') : QuietUnit m m'' := by
  refine ⟨b.galley.trans a.galley, ?_, fun o h c => a.out o (b.out o h c) c⟩
  rcases b.mirror with e | e
  · rw [e]
    exact a.mirror
  · exact .inr e

theorem QuietUnit.voidEnded (m : Imaging) : QuietUnit m m.voidEnded := by
  have ended : QuietUnit m { m with out := none } := ⟨rfl, .inl rfl, fun _ h _ => by cases h⟩
  unfold Imaging.voidEnded
  dsimp only
  split
  · exact ended.trans (.sendCacheClear _)
  · exact ended

theorem QuietUnit.comeOn (m : Imaging) : QuietUnit m m.comeOn := by
  unfold Imaging.comeOn
  dsimp only
  split
  · exact .line m _ _
  · exact (QuietUnit.line m m.unit true).trans (.sendCacheClear _)

theorem QuietUnit.deliver (m : Imaging) (ws : List Word) : QuietUnit m (m.deliver ws) := by
  refine ⟨rfl, .inl rfl, fun o h c => ?_⟩
  obtain ⟨p, hp, e⟩ := Option.map_eq_some_iff.1 h
  obtain ⟨-, c⟩ := c
  rw [hp]
  split at e
  · rw [← e] at c
    rcases c with c | c <;> cases c
  · rw [e]

/-! ## The commands and events of the table -/

section
variable {P : State → Prop} {s : State}

theorem State.putBench_bench_table (s : State) (i : Fin 4) (t : GalleyTable) :
    s.putBench { s.bench i with table := t } = { s with table := t } := by
  have links : s.links.set i s.links[i] = s.links := by simp
  unfold State.putBench State.bench
  dsimp only
  rw [links]

/-- A command of the library on a galley, done through its link. -/
theorem KeptByWork.galley (k : KeptByWork P) (hs : P s) {i : Fin 4} {t : GalleyTable}
    (moves : ∀ ok : Prop, (s.bench i).Moves ok { s.bench i with table := t }) : P { s with table := t } := by
  rw [← s.putBench_bench_table i t]
  exact k.moves s i _ (fun ok _ => moves ok) hs

theorem GalleyTable.live_record {t : GalleyTable} {n : Nat} {g : Fin 32} {r : Galley} (h : t.live n = some (g, r)) :
    t.records[g] = some r := by
  unfold GalleyTable.live at h
  split at h
  · split at h
    · cases h
    · next q hq =>
      split at h
      · cases h
      · injection h with h
        injection h with h1 h2
        subst h1 h2
        exact hq
  · cases h

theorem KeptByWork.respond (k : KeptByWork P) (r : List Word) (hs : P s) : P (s.respond r) :=
  k.frame hs ⟨rfl, rfl, rfl, rfl, rfl⟩

theorem KeptByWork.respond_settle (k : KeptByWork P) (r : List Word) (hs : P s) : P (s.respond r).settle :=
  k.settle _ (k.respond r hs)

theorem KeptByWork.endUnit (k : KeptByWork P) (hs : P s) : P s.endUnit := k.frame hs ⟨rfl, rfl, rfl, rfl, rfl⟩

theorem KeptByWork.act (k : KeptByWork P) (c : LibCommand) (hs : P s) : P (act c s) := by
  have refused (r : List Word) : P (s.respond r) := k.respond r hs
  have storing (op : StoreOp) : P (s.startStore op).settle := k.settle _ (k.frame hs ⟨rfl, rfl, rfl, rfl, rfl⟩)
  cases c with
  | installFont b o =>
    simp only [Machine.act, actInstallFont]
    split
    · exact refused _
    · next idle =>
      split
      · exact refused _
      · next i free => exact k.respond_settle _ (k.startCopy s i _ _ free (by simpa using idle) hs)
  | retireFont n =>
    simp only [Machine.act, actRetireFont]
    split
    · exact refused _
    · next i resident => exact k.respond_settle _ (k.withdraw s i _ resident hs)
  | readStore b o n =>
    simp only [Machine.act, actReadStore]
    repeat' split
    · exact refused _
    · exact storing _
    · exact refused _
  | writeStore b o n ws =>
    simp only [Machine.act, actWriteStore]
    repeat' split
    · exact refused _
    · exact storing _
    · exact refused _
  | loadClassList n es =>
    simp only [Machine.act, actLoadClassList]
    repeat' split
    · exact refused _
    · exact refused _
    · exact k.frame hs ⟨rfl, rfl, rfl, rfl, rfl⟩
  | setLink l r e y =>
    simp only [Machine.act, actSetLink]
    repeat' split
    · next i rate hi hr _ =>
      refine k.respond _ (k.receiver s i (fun rx => rx.control rate (e = 1#16) (y = 1#16)) ?_ hs)
      exact fun rx sound => sound.control rate _ _
    · exact refused _
    · exact refused _
  | killGalley n =>
    simp only [Machine.act, actKillGalley]
    split
    · exact refused _
    · next g r named =>
      have hr : (s.bench r.link).table.records[g] = some r := GalleyTable.live_record named
      exact k.respond_settle _ (k.moves s r.link _ (fun ok _ => Bench.killGalley_moves hr rfl) hs)
  | resumeGalley n =>
    simp only [Machine.act, actResumeGalley]
    split
    · exact refused _
    · next g r named =>
      split
      · refine k.respond_settle _ (k.galley hs (i := r.link) fun ok => ?_)
        exact (Bench.Move.resume (s.bench r.link) g ⟨r, GalleyTable.live_record named, rfl⟩).one
      · exact refused _
  | setClass n c =>
    simp only [Machine.act, actSetClass]
    split
    · exact refused _
    · next g r named =>
      refine k.respond_settle _ (k.galley hs (i := r.link) fun ok => ?_)
      exact (Bench.Move.setClass (s.bench r.link) g _).one
  | clearUnit =>
    simp only [Machine.act, actClearUnit]
    split
    · refine k.respond_settle _ (k.unit s _ ?_ hs)
      split
      · exact .sendCacheClear _
      · exact .line _ _ _
    · exact refused _
  | readStatus n => exact refused _
  | acknowledgeAttention n => exact k.frame hs ⟨rfl, rfl, rfl, rfl, rfl⟩
  | libraryReset => exact k.respond_settle _ (k.frame (k.reset s hs) ⟨rfl, rfl, rfl, rfl, rfl⟩)
  | badCommand w => exact refused _

theorem State.firstTurn_turn {l : List (Fin 4)} {i : Fin 4} {c : Bench} (h : s.firstTurn l = some (i, c)) :
    (s.bench i).turn = some c := by
  induction l with
  | nil => cases h
  | cons j l ih =>
    unfold State.firstTurn at h
    split at h
    · next b hb =>
      injection h with h
      injection h with h1 h2
      subst h1 h2
      exact hb
    · exact ih h

theorem State.storePart_sameWork (s : State) (p : Fin 8) (o : Nat) (ws : List Word) : SameWork s (s.storePart p o ws) := by
  rw [s.storePart_eq]
  exact ⟨rfl, rfl, rfl, rfl, rfl⟩

theorem State.cutStore_sameWork (s : State) (p : Fin 8) : SameWork s (s.cutStore p) := by
  rw [s.cutStore_eq]
  exact ⟨rfl, rfl, rfl, rfl, rfl⟩

theorem KeptByWork.conclude (k : KeptByWork P) (kind : Option FaultKind) (hs : P s) : P (s.faultUnit kind).settle :=
  k.settle _ (k.frame (k.fault s hs) ⟨rfl, rfl, rfl, rfl, rfl⟩)

/-- An invariant of the work in hand is an invariant of the events. -/
theorem KeptByWork.events (k : KeptByWork P) : KeptByEvents P where
  queue _ _ h := k.frame h ⟨rfl, rfl, rfl, rfl, rfl⟩
  powerOn s h := k.powerOn s h
  gather _ _ _ h := k.frame h ⟨rfl, rfl, rfl, rfl, rfl⟩
  keepOffered _ _ _ h := k.frame h ⟨rfl, rfl, rfl, rfl, rfl⟩
  portReady _ _ h := k.frame h ⟨rfl, rfl, rfl, rfl, rfl⟩
  act c s _ h := k.act c h
  readDone s h := by
    unfold State.readDone
    split
    · exact k.respond_settle _ (k.endUnit h)
    · exact h
  writeDone s h := by
    unfold State.writeDone
    repeat' split
    · exact k.respond_settle _ (k.endUnit h)
    · exact k.respond_settle _ (k.frame h ⟨rfl, rfl, rfl, rfl, rfl⟩)
    · exact h
  copyStep s h := by
    unfold State.copyStep
    split
    · exact h
    · next job hj =>
      split
      · exact k.settle _ (k.copyRead s.endUnit job hj (k.endUnit h))
      · exact h
  hold s b h := k.settle _ (k.frame h ⟨rfl, rfl, rfl, rfl, rfl⟩)
  stationReads s _ _ h := by
    unfold State.stationReads
    split
    · exact k.frame h ⟨rfl, rfl, rfl, rfl, rfl⟩
    · exact h
  stationWrites s _ _ _ _ h := by
    unfold State.stationWrites
    repeat' split
    · exact k.frame h ⟨rfl, rfl, rfl, rfl, rfl⟩
    · exact k.frame h ⟨rfl, rfl, rfl, rfl, rfl⟩
    · exact h
  presence s p socket m h := by
    cases change : socketChanges s.banks[p] socket m with
    | true =>
      rw [State.changePresence_of_change change]
      have noted : P (((s.cutStore p).senseSocket p socket m).noteChange p) :=
        k.frame (k.frame h (s.cutStore_sameWork p)) ⟨rfl, rfl, rfl, rfl, rfl⟩
      exact k.settle _ (k.cutFetch _ p (k.loseSlots _ p noted))
    | false =>
      rw [State.changePresence_of_none change]
      exact h
  receiveByte s i b pe fe h := k.receiver s i (fun rx => rx.byte b pe fe) (fun _ sound => sound.byte b pe fe) h
  returnToMark s i h := k.receiver s i Receiver.toMark (fun _ sound => sound.toMark) h
  takeBreak s i h := by
    unfold State.takeBreak
    split
    · exact k.settle _ (k.moves s i _ (fun _ _ => Bench.breakLink_moves _) h)
    · exact h
  readyOn s i h := k.settle _ (k.readyOn s i h)
  readyOff s i h := k.readyOff s i h
  byteSent s i h := by
    unfold State.byteSent
    split
    · exact h
    · next busy =>
      split
      · next more => exact k.nextByte s i busy (by simp [-Fin.getElem_fin, more]) h
      · exact k.settle _ (k.completeReply s i busy h)
  turn s h := by
    unfold State.turn
    split
    · exact h
    · next i c first =>
      have moved : P (s.putBench c) :=
        k.moves s i c (fun ok held => Bench.turn_moves held (State.firstTurn_turn first)) h
      exact k.settle _ (k.frame moved ⟨rfl, rfl, rfl, rfl, rfl⟩)
  ackUnit s h := by
    unfold State.ackUnit
    split
    · exact h
    · next o out =>
      split
      · split
        · exact k.settle _ (k.unit s _ (.voidEnded _) h)
        · next sound => exact k.settle _ (k.acked s o out (by simpa using sound) h)
      · exact h
  conclude s kind h := by
    unfold State.concludeRecord
    repeat' split
    · exact h
    · exact k.settle _ (k.unit s _ (.voidEnded _) h)
    · exact k.conclude kind h
  readyOnUnit s h := by
    unfold State.readyOnUnit
    repeat' split
    · exact h
    · exact k.settle _ (k.unit s _ (.comeOn _) h)
    · exact k.unit s _ (.line s.imaging s.imaging.unit true) h
  readyOffUnit s h := by
    have off : P (s.onImaging fun m => { m with ready := false }) := k.unit s _ (.line s.imaging s.imaging.unit false) h
    unfold State.readyOffUnit
    dsimp only
    repeat' split
    · exact off
    · exact k.settle _ (k.unit _ _ (.line _ .offline _) off)
    · exact k.conclude _ off
    · exact h
  fetchDone s h := by
    unfold State.fetchDone
    repeat' split
    · exact h
    · exact k.settle _ (k.unit s.endUnit _ (.deliver _ _) (k.endUnit h))
    · exact h

end

end Sys2Proof.Machine

/-! Every link stays within its bounds (R36, R59, R61, R80, R134 to R144). -/

namespace Sys2Proof.Machine

/-! ## The Setter's moves -/

theorem nextLadder_le {ladder : Nat} (flags : LineFlags) : nextLadder ladder flags ≤ 7 := by
  unfold nextLadder
  split
  · exact Nat.min_le_right _ _
  · exact Nat.zero_le _

theorem Bench.Move.linkSound {ok : Prop} {b c : Bench} (m : b.Move ok c) (h : LinkSound b.link) : LinkSound c.link := by
  have within := h.setting
  cases m with
  | setting y quiet => exact ⟨h.rx, quiet.bounds within, h.tx⟩
  | giveUp y given => exact ⟨h.rx, given.bounds within, h.tx⟩
  | receiver rx sound => exact ⟨sound h.rx, within, h.tx⟩
  | measure | flags | resume | setClass => exact ⟨h.rx, within, h.tx⟩
  | joinSlot => rwa [Bench.joinSlot_link]
  | joinLine | hold =>
    exact ⟨h.rx, ⟨within.stack, within.overflow, within.extraLead, within.buffer, within.points, within.ladder⟩, h.tx⟩
  | appendLine =>
    exact ⟨h.rx, ⟨within.stack, within.overflow, Nat.zero_le _, within.buffer, within.points, nextLadder_le _⟩, h.tx⟩
  | endGalley =>
    have given := (GivenUp.giveUpGalley b.link.setting).bounds within
    exact ⟨h.rx, ⟨given.stack, given.overflow, given.extraLead, given.buffer, given.points, given.ladder⟩, h.tx⟩
  | allocate =>
    exact ⟨h.rx, ⟨Nat.zero_le _, Nat.zero_le _, Nat.zero_le _, Nat.zero_lt_succ 63, fun _ hp => absurd hp List.not_mem_nil,
      Nat.zero_le _⟩, h.tx⟩
  | kill g o y _ left =>
    rcases left with given | ⟨rfl, -⟩
    · exact ⟨h.rx, given.bounds within, h.tx⟩
    · exact ⟨h.rx, within, h.tx⟩

theorem Bench.Moves.linkSound {ok : Prop} {b c : Bench} (m : b.Moves ok c) (h : LinkSound b.link) : LinkSound c.link :=
  m.induct (P := fun b => LinkSound b.link) (fun _ _ one => one.linkSound) h

/-! ## The transmitter (R143 to R145) -/

theorem TransmitterSound.of_sending {tx : Transmitter} (sending : tx.state = .sending) (shift : tx.shift ≠ none) :
    TransmitterSound tx :=
  ⟨fun idle => absurd (sending.symm.trans idle) (by decide), fun _ => shift,
    fun held => absurd (sending.symm.trans held) (by decide)⟩

theorem TransmitterSound.of_idle {tx : Transmitter} (idle : tx.state = .idle)
    (empty : tx.shift = none ∧ tx.buffer = [] ∧ tx.reply = none) : TransmitterSound tx :=
  ⟨fun _ => empty, fun sending => absurd (idle.symm.trans sending) (by decide),
    fun held => absurd (idle.symm.trans held) (by decide)⟩

theorem TransmitterSound.of_held {tx : Transmitter} (held : tx.state = .held)
    (rest : tx.shift = none ∧ tx.buffer ≠ [] ∧ tx.feReady = false) : TransmitterSound tx :=
  ⟨fun idle => absurd (held.symm.trans idle) (by decide), fun sending => absurd (held.symm.trans sending) (by decide),
    fun _ => rest⟩

theorem head?_ne_none {l : List Byte} (h : l ≠ []) : l.head? ≠ none := fun e => h (List.head?_eq_none_iff.1 e)

theorem TransmitterSound.start (tx : Transmitter) (tag : ReplyTag) (w : Word) (ws : List Word) :
    TransmitterSound (tx.start tag (w :: ws)) :=
  .of_sending rfl (Option.some_ne_none (hiByte w))

/-- A transmitter that sends a byte is SENDING. -/
theorem TransmitterSound.sending_of_shift {tx : Transmitter} (s : TransmitterSound tx) (busy : tx.shift ≠ none) :
    tx.state = .sending := by
  cases e : tx.state with
  | idle => exact absurd (s.idle e).1 busy
  | sending => rfl
  | held => exact absurd (s.held e).1 busy

theorem TransmitterSound.nextByte {tx : Transmitter} (s : TransmitterSound tx) (busy : tx.shift ≠ none)
    (more : tx.buffer ≠ []) : TransmitterSound tx.nextByte := by
  unfold Transmitter.nextByte
  split
  · exact .of_sending (s.sending_of_shift busy) (head?_ne_none more)
  · next off => exact .of_held rfl ⟨rfl, more, by simpa using off⟩

theorem TransmitterSound.readyOn {tx : Transmitter} (s : TransmitterSound tx) : TransmitterSound tx.readyOn := by
  unfold Transmitter.readyOn
  split
  · next held => exact .of_sending rfl (head?_ne_none (s.held held).2.1)
  · next idle => exact .of_idle idle (s.idle idle)
  · next sending => exact .of_sending sending (s.sending sending)

theorem TransmitterSound.readyOff {tx : Transmitter} (s : TransmitterSound tx) : TransmitterSound tx.readyOff := by
  have same : tx.readyOff = { tx with feReady := false } := by
    unfold Transmitter.readyOff
    rw [if_neg fun both => s.sending both.1 both.2]
  rw [same]
  exact ⟨s.idle, s.sending, fun held => ⟨(s.held held).1, (s.held held).2.1, rfl⟩⟩

theorem TransmitterSound.cut (tx : Transmitter) : TransmitterSound tx.cut := by
  unfold Transmitter.cut
  cases e : tx.shift with
  | none => exact .of_idle rfl ⟨rfl, rfl, rfl⟩
  | some b => exact .of_sending rfl (Option.some_ne_none b)

theorem takeReply_linkSound (t : GalleyTable) (i : Fin 4) {l : Link} (h : LinkSound l) : LinkSound (takeReply t i l).2 := by
  rcases takeReply_cases t i l with ⟨e, -⟩ | ⟨m, -, e⟩ | ⟨e, -, -⟩ | ⟨g, r, -, -, -, e⟩
  · exact e ▸ h
  · exact e ▸ ⟨h.rx, h.setting, .start _ _ _ _⟩
  · exact e ▸ h
  · exact e ▸ ⟨h.rx, h.setting, .start _ _ _ _⟩

/-! ## Every step -/

theorem resetLink_sound (l : Link) : LinkSound l.afterPowerOn :=
  ⟨⟨Nat.zero_le _, Nat.zero_le _, Nat.zero_le _, fun _ => rfl⟩, (GivenUp.idle idleSetting).bounds
    ⟨Nat.zero_le _, Nat.zero_le _, Nat.zero_le _, Nat.zero_lt_succ 63, fun _ hp => absurd hp List.not_mem_nil, Nat.zero_le _⟩,
    .of_idle rfl ⟨rfl, rfl, rfl⟩⟩

/-- Every link within its bounds. -/
def LinksSound (s : State) : Prop := ∀ i : Fin 4, LinkSound s.links[i]

theorem LinksSound.settle {s : State} (h : LinksSound s) : LinksSound s.settle := by
  intro i
  obtain ⟨t, -, e, -⟩ := s.settle_reply i
  rw [e]
  exact takeReply_linkSound t i (h i)

theorem LinksSound.onLink {s : State} (h : LinksSound s) (i : Fin 4) {f : Link → Link}
    (hf : LinkSound s.links[i] → LinkSound (f s.links[i])) : LinksSound (s.onLink i f) :=
  modifyAt_forall h hf

theorem LinksSound.links {s t : State} (h : LinksSound s) (e : t.links = s.links) : LinksSound t := fun i => by
  rw [e]
  exact h i

theorem linksSound_kept : KeptByWork LinksSound where
  frame h same := h.links same.links
  settle _ h := h.settle
  powerOn s _ := LinksSound.settle fun i => by
    show LinkSound (s.powerCutStore.links.map Link.afterPowerOn)[i]
    simpa using resetLink_sound _
  reset s h i := by
    have l := h i
    show LinkSound (s.links.map Link.afterLibraryReset)[i]
    rw [Fin.getElem_fin, Vector.getElem_map]
    exact ⟨Receiver.afterLibraryReset_sound _, (GivenUp.idle _).bounds l.setting, .cut _⟩
  startCopy s i b o _ _ h := h.links (by rw [State.startCopy_eq])
  withdraw s i _ _ h := h.links (by rw [State.withdraw_eq])
  copyRead s job _ h := h.links (by rw [State.copyRead_eq])
  loseSlots s p h := h.links (by rw [State.loseSlots_eq])
  cutFetch s p h := h.links (by rw [State.cutFetch_eq])
  moves s i c m h := by
    have moved := m False False.elim
    have sound : LinkSound c.link := moved.linkSound (h i)
    exact fun j => modifyAt_forall (f := fun _ => c.link) h (fun _ => sound) j
  receiver s i f sound h := h.onLink i fun l => ⟨sound _ l.rx, l.setting, l.tx⟩
  readyOn s i h := h.onLink i fun l => ⟨l.rx, l.setting, l.tx.readyOn⟩
  readyOff s i h := h.onLink i fun l => ⟨l.rx, l.setting, l.tx.readyOff⟩
  nextByte s i busy more h := h.onLink i fun l => ⟨l.rx, l.setting, l.tx.nextByte busy more⟩
  completeReply s i _ h := by
    have finished : LinksSound (s.onLink i fun l => { l with tx := l.tx.finish }) :=
      h.onLink i fun l => ⟨l.rx, l.setting, .of_idle rfl ⟨rfl, rfl, rfl⟩⟩
    unfold State.completeReply
    dsimp only
    split
    · exact finished
    · exact finished.onLink i fun l => ⟨l.rx, l.setting, l.tx⟩
    · exact finished
    · exact finished.links (by rw [State.freeRecord_eq])
  acked _ _ _ _ h := h.links rfl
  fault _ h := h.links rfl
  unit _ _ _ h := h.links rfl

/-- Settles O57: every move of the Setter, every byte at a receiver and every byte sent keeps the bounds. -/
theorem stepKeepsLinksSound : Obligations.StepKeepsLinksSound := by
  unfold Obligations.StepKeepsLinksSound
  exact fun _ _ => linksSound_kept.events.step

end Sys2Proof.Machine

/-! What an operation on one galley record does to the Galley Table and the Line Store (R112 to R125). -/

namespace Sys2Proof.Machine

/-! ## Line records held (R116) -/

/-- The line records that a record holds. -/
def lineCount : Option Galley → Nat
  | none => 0
  | some r => r.lines.length

theorem GalleyTable.heldLines_eq (t : GalleyTable) : t.heldLines = ∑ g : Fin 32, lineCount t.records[g] := by
  have ids : recordIds = List.finRange 32 := by decide
  have counts : t.heldLines = (recordIds.map fun g => lineCount t.records[g]).sum := rfl
  rw [counts, ids, Fin.sum_univ_def]

theorem GalleyTable.heldLines_edit {t t' : GalleyTable} {g : Fin 32} (others : ∀ h, h ≠ g → t'.records[h] = t.records[h]) :
    t'.heldLines + lineCount t.records[g] = t.heldLines + lineCount t'.records[g] := by
  have rest : ∑ h ∈ Finset.univ.erase g, lineCount t'.records[h] = ∑ h ∈ Finset.univ.erase g, lineCount t.records[h] :=
    Finset.sum_congr rfl fun h hh => by rw [others h (Finset.ne_of_mem_erase hh)]
  rw [t.heldLines_eq, t'.heldLines_eq, ← Finset.add_sum_erase _ _ (Finset.mem_univ g),
    ← Finset.add_sum_erase (a := g) _ (fun h => lineCount t.records[h]) (Finset.mem_univ g), rest]
  omega

/-! ## One record changed -/

/-- A record that may stand on the eligible list (R118). -/
def Listed (x : Option Galley) : Prop := ∃ r, x = some r ∧ (r.state = .pressed ∨ r.state = .set) ∧ r.cls ≠ 0

/-- The record g of a table changed, with its lines accounted for and its place on the eligible list in order; all other
records and places stay. -/
structure Became (g : Fin 32) (t t' : GalleyTable) (a b : Option Galley) : Prop where
  old : t.records[g] = a
  new : t'.records[g] = b
  others : ∀ h, h ≠ g → t'.records[h] = t.records[h]
  lines : t'.freeLines + lineCount b = t.freeLines + lineCount a
  once : t.eligible.Nodup → t'.eligible.Nodup
  eligible : ∀ h, h ≠ g → h ∈ t'.eligible → h ∈ t.eligible
  own : g ∈ t'.eligible → Listed b ∨ (g ∈ t.eligible ∧ (Listed a → Listed b))

section
variable {g : Fin 32} {t t' u : GalleyTable} {a b c : Option Galley} {r : Galley}

theorem Became.refl (h : t.records[g] = a) : Became g t t a a :=
  ⟨h, h, fun _ _ => rfl, rfl, fun n => n, fun _ _ m => m, fun m => .inr ⟨m, fun l => l⟩⟩

theorem Became.trans (x : Became g t t' a b) (y : Became g t' u b c) : Became g t u a c where
  old := x.old
  new := y.new
  others h hh := (y.others h hh).trans (x.others h hh)
  lines := by
    have hx := x.lines
    have hy := y.lines
    omega
  once n := y.once (x.once n)
  eligible h hh m := x.eligible h hh (y.eligible h hh m)
  own m := by
    rcases y.own m with listed | ⟨m, bc⟩
    · exact .inl listed
    · rcases x.own m with listed | ⟨m, ab⟩
      · exact .inl (bc listed)
      · exact .inr ⟨m, fun l => bc (ab l)⟩

/-- A record set, its number of lines and its fitness for the eligible list kept. -/
theorem Became.set {x : Galley} (hr : t.records[g] = some r) (lines : x.lines.length = r.lines.length)
    (listed : Listed (some r) → Listed (some x)) :
    Became g t { t with records := t.records.set g (some x) } (some r) (some x) where
  old := hr
  new := set_same _ _ _
  others h hh := set_other _ (Ne.symm hh) _
  lines := by
    show t.freeLines + x.lines.length = t.freeLines + r.lines.length
    rw [lines]
  once n := n
  eligible _ _ m := m
  own m := .inr ⟨m, listed⟩

theorem Became.modify (hr : t.records[g] = some r) {f : Galley → Galley} (lines : (f r).lines.length = r.lines.length)
    (listed : Listed (some r) → Listed (some (f r))) : Became g t (t.modify g f) (some r) (some (f r)) := by
  rw [GalleyTable.modify_of_some hr]
  exact .set hr lines listed

theorem Listed.of_same {x : Galley} (state : x.state = r.state) (cls : x.cls = r.cls) : Listed (some r) → Listed (some x) := by
  rintro ⟨q, e, s, c⟩
  injection e with e
  subst e
  exact ⟨x, rfl, state ▸ s, cls ▸ c⟩

theorem Became.joinEligible (hr : t.records[g] = some r) (state : r.state = .pressed ∨ r.state = .set) :
    Became g t (t.joinEligible g) (some r) (some r) := by
  rw [GalleyTable.joinEligible_eq hr]
  split
  · next new =>
    refine ⟨hr, hr, fun _ _ => rfl, rfl, fun n => ?_, fun h hh m => ?_, fun _ => .inl ⟨r, rfl, state, new.1⟩⟩
    · exact List.nodup_append.2 ⟨n, List.nodup_singleton g, fun x hx y hy e => new.2 (by
        rw [List.mem_singleton.1 hy] at e
        exact e ▸ hx)⟩
    · exact (List.mem_append.1 m).elim (fun m => m) fun m => absurd (List.mem_singleton.1 m) hh
  · exact .refl hr

theorem Became.leaveEligible (h : t.records[g] = a) : Became g t (t.leaveEligible g) a a where
  old := h
  new := h
  others _ _ := rfl
  lines := rfl
  once n := n.filter _
  eligible _ _ m := (List.mem_filter.1 m).1
  own m := by
    have off := (List.mem_filter.1 m).2
    simp at off

theorem GalleyTable.not_mem_leaveEligible (t : GalleyTable) (g : Fin 32) : g ∉ (t.leaveEligible g).eligible := by
  simp [GalleyTable.leaveEligible]

theorem Became.returnLines (hr : t.records[g] = some r) (off : g ∉ t.eligible) :
    Became g t (t.returnLines g) (some r) (some { r with lines := [] }) := by
  have e : t.returnLines g =
      { t with records := t.records.set g (some { r with lines := [] }), freeLines := t.freeLines + r.lines.length } := by
    unfold GalleyTable.returnLines
    rw [hr]
  rw [e]
  exact ⟨hr, set_same _ _ _, fun h hh => set_other _ (Ne.symm hh) _, rfl, fun n => n, fun _ _ m => m,
    fun m => absurd m off⟩

theorem GalleyTable.returnLines_eligible (t : GalleyTable) (g : Fin 32) : (t.returnLines g).eligible = t.eligible := by
  unfold GalleyTable.returnLines
  split <;> rfl

/-- A record changed while it is off the eligible list may change in any way that keeps its number of lines. -/
theorem Became.modify_off (hr : t.records[g] = some r) (off : g ∉ t.eligible) {f : Galley → Galley}
    (lines : (f r).lines.length = r.lines.length) : Became g t (t.modify g f) (some r) (some (f r)) := by
  rw [GalleyTable.modify_of_some hr]
  refine ⟨hr, set_same _ _ _, fun h hh => set_other _ (Ne.symm hh) _, ?_, fun n => n, fun _ _ m => m, fun m => absurd m off⟩
  show t.freeLines + (f r).lines.length = t.freeLines + r.lines.length
  rw [lines]

/-- A galley as it leaves the store (R121 to R123). -/
def Galley.finished (r : Galley) (o : GalleyOutcome) : Galley :=
  { r with lines := [], state := .done, outcome := o, mark := true }

theorem Became.finish (hr : t.records[g] = some r) (o : GalleyOutcome) :
    Became g t (t.finish g o) (some r) (some (r.finished o)) := by
  have left : Became g t (t.leaveEligible g) (some r) (some r) := .leaveEligible hr
  have off := t.not_mem_leaveEligible g
  have returned := left.trans (.returnLines left.new off)
  refine returned.trans (Became.modify_off returned.new ?_ rfl)
  rw [GalleyTable.returnLines_eligible]
  exact off

theorem GalleyTable.kill_of_exposing (hr : t.records[g] = some r) (exposing : r.state = .exposing) (o : GalleyOutcome) :
    t.kill g o = if r.killPending then t else t.modify g fun r => { r with killPending := true, outcome := o } := by
  unfold GalleyTable.kill
  simp only [hr, exposing]

theorem GalleyTable.kill_of_live (hr : t.records[g] = some r) (idle : r.state ≠ .exposing) (live : r.state ≠ .done)
    (o : GalleyOutcome) : t.kill g o = t.finish g o := by
  unfold GalleyTable.kill
  cases e : r.state <;> simp_all

theorem GalleyTable.kill_of_done (hr : t.records[g] = some r) (done : r.state = .done) (o : GalleyOutcome) :
    t.kill g o = t := by
  unfold GalleyTable.kill
  simp only [hr, done]

/-- A kill: nothing, a kill pending, or the galley's leave (R123). -/
theorem Became.kill (hr : t.records[g] = some r) (o : GalleyOutcome) :
    t.kill g o = t ∨
    (r.state = .exposing ∧ Became g t (t.kill g o) (some r) (some { r with killPending := true, outcome := o })) ∨
    (r.state ≠ .exposing ∧ Became g t (t.kill g o) (some r) (some (r.finished o))) := by
  by_cases exposing : r.state = .exposing
  · rw [GalleyTable.kill_of_exposing hr exposing]
    split
    · exact .inl rfl
    · refine .inr (.inl ⟨exposing, .modify hr rfl ?_⟩)
      exact .of_same rfl rfl
  · by_cases done : r.state = .done
    · exact .inl (GalleyTable.kill_of_done hr done o)
    · rw [GalleyTable.kill_of_live hr exposing done]
      exact .inr (.inr ⟨exposing, .finish hr o⟩)

theorem GalleyTable.kill_other (t : GalleyTable) {h : Fin 32} (other : g ≠ h) (o : GalleyOutcome) :
    (t.kill g o).records[h] = t.records[h] := by
  cases hr : t.records[g] with
  | none =>
    unfold GalleyTable.kill
    rw [hr]
  | some r =>
    rcases Became.kill hr o with same | ⟨-, e⟩ | ⟨-, e⟩
    · rw [same]
    · exact e.others h (Ne.symm other)
    · exact e.others h (Ne.symm other)

/-- A galley ended by its code (R48, R112). -/
def Galley.endedByCode (r : Galley) : Galley :=
  if r.state = .receiving ∨ r.state = .pressed then { r with ended := true, state := .set, mark := true }
  else { r with ended := true }

theorem Became.endGalley (hr : t.records[g] = some r) :
    Became g t (t.endGalley g) (some r) (some r.endedByCode) := by
  unfold GalleyTable.endGalley Galley.endedByCode
  simp only [hr]
  split
  · have changed : Became g t (t.modify g fun r => { r with ended := true, state := .set, mark := true }) (some r)
        (some { r with ended := true, state := .set, mark := true }) := by
      refine .modify hr rfl ?_
      rintro ⟨q, e, -, c⟩
      injection e with e
      subst e
      exact ⟨_, rfl, .inr rfl, c⟩
    exact changed.trans (.joinEligible changed.new (.inr rfl))
  · exact .modify hr rfl (.of_same rfl rfl)

/-- A FAILED galley resumed (R124). -/
def Galley.resumed (r : Galley) : Galley :=
  { r with state := if r.ended then .set else .pressed, continuation := true, mark := r.mark || r.ended }

theorem Galley.resumed_state (r : Galley) : r.resumed.state = .pressed ∨ r.resumed.state = .set := by
  unfold Galley.resumed
  cases r.ended
  · exact .inl rfl
  · exact .inr rfl

theorem Became.resume (hr : t.records[g] = some r) :
    t.resume g = t ∨ (r.state = .failed ∧ Became g t (t.resume g) (some r) (some r.resumed)) := by
  unfold GalleyTable.resume
  simp only [hr]
  split
  · next failed =>
    have changed : Became g t (t.modify g fun r => { r with
        state := if r.ended then .set else .pressed, continuation := true, mark := r.mark || r.ended }) (some r)
        (some r.resumed) := by
      refine .modify (f := Galley.resumed) hr rfl ?_
      rintro ⟨q, e, -, c⟩
      injection e with e
      subst e
      exact ⟨_, rfl, r.resumed_state, c⟩
    exact .inr ⟨failed, changed.trans (.joinEligible changed.new r.resumed_state)⟩
  · exact .inl rfl

theorem GalleyTable.resume_other (t : GalleyTable) {h : Fin 32} (other : g ≠ h) :
    (t.resume g).records[h] = t.records[h] := by
  cases hr : t.records[g] with
  | none =>
    unfold GalleyTable.resume
    rw [hr]
  | some r =>
    rcases Became.resume hr with same | ⟨-, e⟩
    · rw [same]
    · exact e.others h (Ne.symm other)

theorem Became.setClass (hr : t.records[g] = some r) (c : Nat) :
    t.setClass g c = t ∨ (r.state ≠ .done ∧ Became g t (t.setClass g c) (some r) (some { r with cls := c })) := by
  unfold GalleyTable.setClass
  simp only [hr]
  split
  · exact .inl rfl
  · next live =>
    refine .inr ⟨live, ?_⟩
    have e : t.modify g (fun r => { r with cls := c }) = { t with records := t.records.set g (some { r with cls := c }) } :=
      GalleyTable.modify_of_some hr _
    have base : t.records.set g (some { r with cls := c }) = (t.modify g fun r => { r with cls := c }).records := by rw [e]
    split
    · next waiting =>
      split
      · next zero =>
        refine ⟨hr, ?_, fun h hh => ?_, ?_, fun n => ?_, fun h hh m => ?_, fun m => ?_⟩
        · exact GalleyTable.modify_same hr _
        · exact t.modify_other (Ne.symm hh) _
        · rw [e]; rfl
        · rw [e]; exact n.filter _
        · rw [e] at m; exact (List.mem_filter.1 m).1
        · exact absurd m (GalleyTable.not_mem_leaveEligible _ g)
      · next some =>
        have changed : Became g t (t.modify g fun r => { r with cls := c }) (Option.some r) (Option.some { r with cls := c }) := by
          refine .modify hr rfl fun _ => ⟨_, rfl, waiting, some⟩
        exact changed.trans (.joinEligible changed.new waiting)
    · next other =>
      refine .modify hr rfl ?_
      rintro ⟨q, e, s, -⟩
      injection e with e
      subst e
      exact absurd s other

/-- A line appended keeps all but the lines, their number, the state, the flags and the mark (R87, R112). -/
theorem Galley.appendLine_eq (r : Galley) (g : Fin 32) (line : ClosedLine) :
    r.appendLine g line =
      { r with linesSet := (r.appendLine g line).linesSet, lines := (r.appendLine g line).lines
               state := (r.appendLine g line).state, flags := (r.appendLine g line).flags
               mark := (r.appendLine g line).mark } := by
  unfold Galley.appendLine Galley.raiseFlag
  dsimp only
  repeat' split
  all_goals rfl

theorem Galley.appendLine_lines (r : Galley) (g : Fin 32) (line : ClosedLine) :
    ∃ l : LineRecord, l.glyphs = line.glyphs ∧ (r.appendLine g line).lines = r.lines ++ [l] := by
  refine ⟨{ galley := g, number := satAdd r.linesSet 1, advance := line.advance, quad := line.quad, flags := line.flags
            glyphs := line.glyphs }, rfl, ?_⟩
  unfold Galley.appendLine Galley.raiseFlag
  dsimp only
  repeat' split
  all_goals rfl

theorem Galley.appendLine_state (r : Galley) (g : Fin 32) (line : ClosedLine) :
    (r.appendLine g line).state = r.state ∨ (r.state = .receiving ∧ (r.appendLine g line).state = .pressed) := by
  have flagged (x : Galley) (c : Bool) (f : GalleyFlag) : (if c then x.raiseFlag f else x).state = x.state := by
    rw [(x.raiseFlag_raised c f).rest]
  unfold Galley.appendLine
  simp only [flagged]
  split
  · next full => exact .inr ⟨full.1, rfl⟩
  · exact .inl rfl

theorem Became.appendLine (hr : t.records[g] = some r) (room : t.freeLines ≠ 0) (line : ClosedLine) :
    Became g t (t.appendLine g line) (some r) (some (r.appendLine g line)) := by
  obtain ⟨l, -, lines⟩ := r.appendLine_lines g line
  have cls : (r.appendLine g line).cls = r.cls := by rw [r.appendLine_eq g line]
  have taken : Became g t
      { t with records := t.records.set g (some (r.appendLine g line)), freeLines := t.freeLines - 1 } (some r)
      (some (r.appendLine g line)) := by
    refine ⟨hr, set_same _ _ _, fun h hh => set_other _ (Ne.symm hh) _, ?_, fun n => n, fun _ _ m => m,
      fun m => .inr ⟨m, ?_⟩⟩
    · show t.freeLines - 1 + (r.appendLine g line).lines.length = t.freeLines + r.lines.length
      rw [lines, List.length_append, List.length_singleton]
      omega
    · rintro ⟨q, e, s, c⟩
      injection e with e
      subst e
      refine ⟨_, rfl, ?_, cls ▸ c⟩
      rcases r.appendLine_state g line with same | ⟨receiving, -⟩
      · rwa [same]
      · rw [receiving] at s
        rcases s with s | s <;> cases s
  have e : t.appendLine g line = if r.state = .receiving ∧ (r.appendLine g line).state = .pressed then
      GalleyTable.joinEligible
        { t with records := t.records.set g (some (r.appendLine g line)), freeLines := t.freeLines - 1 } g
      else { t with records := t.records.set g (some (r.appendLine g line)), freeLines := t.freeLines - 1 } := by
    unfold GalleyTable.appendLine
    simp only [hr]
  rw [e]
  split
  · next pressed => exact taken.trans (.joinEligible taken.new (.inl pressed.2))
  · exact taken

theorem Became.allocate (free : t.records[g] = none) {x : Galley} (empty : x.lines = []) (off : g ∉ t.eligible) :
    Became g t (t.allocate g x) none (some x) where
  old := free
  new := set_same _ _ _
  others h hh := set_other _ (Ne.symm hh) _
  lines := by
    show t.freeLines + x.lines.length = _
    rw [empty]
    rfl
  once n := n
  eligible _ _ m := m
  own m := absurd m off

/-! ## The film's operations (R116, R120 to R122) -/

theorem Became.freeHeadLine (hr : t.records[g] = some r) :
    t.freeHeadLine g = t ∨ ∃ l rest, r.lines = l :: rest ∧
      Became g t (t.freeHeadLine g) (some r) (some { r with lines := rest, linesExposed := satAdd r.linesExposed 1 }) := by
  unfold GalleyTable.freeHeadLine
  simp only [hr]
  split
  · exact .inl rfl
  · next l rest lines =>
    refine .inr ⟨l, rest, lines, hr, set_same _ _ _, fun h hh => set_other _ (Ne.symm hh) _, ?_, fun n => n,
      fun _ _ m => m, fun m => .inr ⟨m, .of_same rfl rfl⟩⟩
    show t.freeLines + 1 + rest.length = t.freeLines + r.lines.length
    rw [lines, List.length_cons]
    omega

theorem Became.select (hr : t.records[g] = some r) : Became g t (t.select g) (some r) (some r.exposed) := by
  have left : Became g t (t.leaveEligible g) (some r) (some r) := .leaveEligible hr
  refine left.trans (Became.modify_off (f := Galley.exposed) left.new (t.not_mem_leaveEligible g) rfl)

theorem GalleyTable.closed_of_some (hr : t.records[g] = some r) :
    t.closed g = t.finish g (if r.killPending then r.outcome else .exposed) := by
  unfold GalleyTable.closed
  rw [hr]

/-- A fault on a galley: it leaves the store, or it is FAILED (R122). -/
theorem Became.faulted (hr : t.records[g] = some r) (off : g ∉ t.eligible) :
    ((r.killPending = true ∨ r.ended = true) ∧ ∃ o, Became g t (t.faulted g) (some r) (some (r.finished o))) ∨
      (r.killPending = false ∧
        Became g t (t.faulted g) (some r) (some { r with state := .failed, mark := true })) := by
  unfold GalleyTable.faulted
  simp only [hr]
  split
  · next kill => exact .inl ⟨.inl kill, _, .finish hr _⟩
  · next noKill =>
    split
    · next ended => exact .inl ⟨.inr ended.1, _, .finish hr _⟩
    · exact .inr ⟨by simpa using noKill, .modify_off hr off rfl⟩

end

/-! ## The table in order (R116, R118, R128) -/

/-- The parts of a table's order that are the table's own. -/
structure TableOrder (t : GalleyTable) : Prop where
  lines : t.freeLines + t.heldLines = Config.poolLines
  done : ∀ (g : Fin 32) (r : Galley), t.records[g] = some r → r.state = .done → r.lines = []
  once : t.eligible.Nodup
  eligible : ∀ g ∈ t.eligible, Listed t.records[g]

theorem Became.order {g : Fin 32} {t t' : GalleyTable} {a b : Option Galley} (e : Became g t t' a b) (o : TableOrder t)
    (done : ∀ r, b = some r → r.state = .done → r.lines = []) : TableOrder t' where
  lines := by
    have held := GalleyTable.heldLines_edit e.others
    have lines := e.lines
    have total := o.lines
    rw [e.old, e.new] at held
    omega
  done h r hr hd := by
    by_cases same : h = g
    · subst same
      exact done r (e.new.symm.trans hr) hd
    · rw [e.others h same] at hr
      exact o.done h r hr hd
  once := e.once o.once
  eligible h m := by
    by_cases same : h = g
    · subst same
      rw [e.new]
      rcases e.own m with listed | ⟨m, ab⟩
      · exact listed
      · have listed := o.eligible h m
        rw [e.old] at listed
        exact ab listed
    · rw [e.others h same]
      exact o.eligible h (e.eligible h same m)

end Sys2Proof.Machine

/-! The Setter's moves keep the Galley Table in order (R110 to R118, R123 to R125, R128). -/

namespace Sys2Proof.Machine

/-! ## What a turn does to the records -/

/-- A record changed by a turn: it neither begins nor stops EXPOSING, what is DONE, ended or killed stays so, and it goes on
receiving copy unless it is a galley of the link i (R112, R123). -/
structure Galley.Turned (i : Option (Fin 4)) (r r' : Galley) : Prop where
  link : r'.link = r.link
  done : r.state = .done → r'.state = .done
  exposing : r'.state = .exposing ↔ r.state = .exposing
  ended : r.ended = true → r'.ended = true
  killed : r.killPending = true → r'.killPending = true
  receives : some r.link ≠ i → ∀ j, r.receives j → r'.receives j

/-- A table changed by a turn on link i. -/
structure TableTurn (i : Option (Fin 4)) (t t' : GalleyTable) : Prop where
  order : TableOrder t → TableOrder t'
  follows : ∀ (g : Fin 32) (r : Galley), t.records[g] = some r → ∃ r', t'.records[g] = some r' ∧ r.Turned i r'
  fresh : ∀ (g : Fin 32) (r' : Galley), t.records[g] = none → t'.records[g] = some r' → r'.state ≠ .exposing

theorem Galley.Turned.of_same {r r' : Galley} (link : r'.link = r.link) (state : r'.state = r.state) (ended : r'.ended = r.ended)
    (killed : r'.killPending = r.killPending) (i : Option (Fin 4)) : r.Turned i r' where
  link := link
  done h := state ▸ h
  exposing := by rw [state]
  ended h := ended ▸ h
  killed h := killed ▸ h
  receives _ j := by
    unfold Galley.receives
    rw [link, state, ended, killed]
    exact fun h => h

theorem Galley.Turned.refl (r : Galley) (i : Option (Fin 4)) : r.Turned i r := .of_same rfl rfl rfl rfl i

section
variable {i : Option (Fin 4)} {t t' u : GalleyTable} {g : Fin 32} {r r' : Galley}

theorem TableTurn.refl (t : GalleyTable) (i : Option (Fin 4)) : TableTurn i t t :=
  ⟨fun o => o, fun _ r h => ⟨r, h, .refl r i⟩, fun g r' h h' => by rw [h] at h'; cases h'⟩

/-- One record changed; the lines of a record that was DONE before stand as they stood. -/
theorem TableTurn.of_became (e : Became g t t' (some r) (some r')) (turned : r.Turned i r')
    (lines : r'.state = .done → (r.state = .done ∧ r'.lines = r.lines) ∨ r'.lines = []) : TableTurn i t t' where
  order o := e.order o fun q hq done => by
    injection hq with hq
    subst hq
    rcases lines done with ⟨before, same⟩ | none
    · rw [same]
      exact o.done g r e.old before
    · exact none
  follows h q hq := by
    by_cases same : h = g
    · subst same
      have eq : r = q := Option.some.inj (e.old.symm.trans hq)
      exact ⟨r', e.new, eq ▸ turned⟩
    · exact ⟨q, (e.others h same).trans hq, .refl q i⟩
  fresh h q hn hq := by
    by_cases same : h = g
    · subst same
      rw [e.old] at hn
      cases hn
    · rw [e.others h same, hn] at hq
      cases hq

/-- A record changed in nothing that the order of the table depends on. -/
theorem TableTurn.modify (t : GalleyTable) (g : Fin 32) {f : Galley → Galley}
    (hf : ∀ r, (f r).link = r.link ∧ (f r).state = r.state ∧ (f r).ended = r.ended ∧ (f r).killPending = r.killPending ∧
      (f r).cls = r.cls ∧ (f r).lines = r.lines) : TableTurn i t (t.modify g f) := by
  cases h : t.records[g] with
  | none => rw [GalleyTable.modify_of_none h]; exact .refl t i
  | some r =>
    obtain ⟨link, state, ended, killed, cls, lines⟩ := hf r
    refine .of_became (.modify h (by rw [lines]) (.of_same state cls)) (.of_same link state ended killed i) fun done => ?_
    exact .inl ⟨state ▸ done, lines⟩

theorem TableTurn.kill (t : GalleyTable) (o : GalleyOutcome) (hr : t.records[g] = some r) (own : some r.link = i) :
    TableTurn i t (t.kill g o) := by
  rcases Became.kill hr o with same | ⟨-, e⟩ | ⟨idle, e⟩
  · rw [same]
    exact .refl t i
  · exact .of_became e ⟨rfl, fun h => h, Iff.rfl, fun h => h, fun _ => rfl, fun other => absurd own other⟩
      fun done => .inl ⟨done, rfl⟩
  · refine .of_became e ⟨rfl, fun _ => rfl, ⟨fun h => (by cases h), fun h => absurd h idle⟩, fun h => h, fun h => h,
      fun other => absurd own other⟩ fun _ => .inr rfl

theorem Galley.endedByCode_turned (own : some r.link = i) : r.Turned i r.endedByCode := by
  unfold Galley.endedByCode
  split
  · next receiving =>
    have state : r.state ≠ .done ∧ r.state ≠ .exposing := by rcases receiving with h | h <;> simp [h]
    exact ⟨rfl, fun h => absurd h state.1, ⟨fun h => (by cases h), fun h => absurd h state.2⟩, fun _ => rfl, fun h => h,
      fun other => absurd own other⟩
  · exact ⟨rfl, fun h => h, Iff.rfl, fun _ => rfl, fun h => h, fun other => absurd own other⟩

theorem Galley.endedByCode_done (done : r.endedByCode.state = .done) : r.state = .done ∧ r.endedByCode.lines = r.lines := by
  unfold Galley.endedByCode at done ⊢
  split at done
  · cases done
  · next other =>
    rw [if_neg other]
    exact ⟨done, rfl⟩

theorem TableTurn.endGalley (t : GalleyTable) (hr : t.records[g] = some r) (own : some r.link = i) :
    TableTurn i t (t.endGalley g) :=
  .of_became (.endGalley hr) (Galley.endedByCode_turned own) fun done => .inl (Galley.endedByCode_done done)

theorem TableTurn.resume (t : GalleyTable) (hr : t.records[g] = some r) (own : some r.link = i) :
    TableTurn i t (t.resume g) := by
  rcases Became.resume hr with same | ⟨failed, e⟩
  · rw [same]
    exact .refl t i
  · have state : r.state ≠ .done ∧ r.state ≠ .exposing := by simp [failed]
    have resumed : r.resumed.state ≠ .done ∧ r.resumed.state ≠ .exposing := by
      rcases r.resumed_state with h | h <;> simp [h]
    exact .of_became e ⟨rfl, fun h => absurd h state.1, ⟨fun h => absurd h resumed.2, fun h => absurd h state.2⟩, fun h => h,
      fun h => h, fun other => absurd own other⟩ fun h => absurd h resumed.1

theorem TableTurn.setClass (t : GalleyTable) (g : Fin 32) (c : Nat) : TableTurn i t (t.setClass g c) := by
  cases h : t.records[g] with
  | none =>
    have same : t.setClass g c = t := by
      unfold GalleyTable.setClass
      rw [h]
    rw [same]
    exact .refl t i
  | some r =>
    rcases Became.setClass h c with same | ⟨live, e⟩
    · rw [same]
      exact .refl t i
    · exact .of_became e ⟨rfl, fun h => h, Iff.rfl, fun h => h, fun h => h, fun _ _ h => h⟩ fun done => absurd done live

theorem Galley.appendLine_turned (r : Galley) (g : Fin 32) (line : ClosedLine) : r.Turned i (r.appendLine g line) := by
  have rest := r.appendLine_eq g line
  have link : (r.appendLine g line).link = r.link := by rw [rest]
  have ended : (r.appendLine g line).ended = r.ended := by rw [rest]
  have killed : (r.appendLine g line).killPending = r.killPending := by rw [rest]
  rcases r.appendLine_state g line with state | ⟨receiving, pressed⟩
  · exact .of_same link state ended killed i
  · refine ⟨link, fun h => ?_, ⟨fun h => ?_, fun h => ?_⟩, fun h => ended ▸ h, fun h => killed ▸ h, fun _ j h => ?_⟩
    · rw [receiving] at h; cases h
    · rw [pressed] at h; cases h
    · rw [receiving] at h; cases h
    · obtain ⟨hl, he, hk, -⟩ := h
      exact ⟨link ▸ hl, ended ▸ he, killed ▸ hk, .inr (.inl pressed)⟩

theorem TableTurn.appendLine (t : GalleyTable) (hr : t.records[g] = some r) (room : t.freeLines ≠ 0) (live : r.state ≠ .done)
    (line : ClosedLine) : TableTurn i t (t.appendLine g line) := by
  refine .of_became (.appendLine hr room line) (r.appendLine_turned g line) fun done => ?_
  rcases r.appendLine_state g line with state | ⟨-, pressed⟩
  · exact absurd (state ▸ done) live
  · rw [pressed] at done
    cases done

theorem TableTurn.allocate (t : GalleyTable) (free : t.records[g] = none) {x : Galley} (empty : x.lines = [])
    (state : x.state = .receiving) : TableTurn i t (t.allocate g x) where
  order o := by
    refine (Became.allocate free empty fun m => ?_).order o fun q hq _ => ?_
    · obtain ⟨q, hq, -⟩ := o.eligible g m
      rw [free] at hq
      cases hq
    · injection hq with hq
      exact hq ▸ empty
  follows h q hq := by
    have other : g ≠ h := by
      rintro rfl
      rw [free] at hq
      cases hq
    exact ⟨q, (set_other _ other _).trans hq, .refl q i⟩
  fresh h q hn hq := by
    by_cases same : g = h
    · subst same
      have e : x = q := Option.some.inj ((set_same _ _ _).symm.trans hq)
      rw [← e, state]
      decide
    · have e : t.records[h] = some q := (set_other _ same _).symm.trans hq
      rw [hn] at e
      cases e

end

/-! ## A turn keeps the whole in order -/

section
variable {s : State} {b c : Bench}

theorem State.putBench_own (s : State) (b : Bench) {i : Fin 4} (h : b.id = i) : (s.putBench b).links[i] = b.link := by
  subst h
  exact set_same _ _ _

theorem State.putBench_other (s : State) (b : Bench) {j : Fin 4} (h : b.id ≠ j) : (s.putBench b).links[j] = s.links[j] :=
  set_other _ h _

theorem TableSound.order {s : State} (h : TableSound s) : TableOrder s.table := ⟨h.lines, h.done, h.once, h.eligible⟩

theorem TableTurn.exposing {i : Option (Fin 4)} {t t' : GalleyTable} (x : TableTurn i t t') (g : Fin 32) :
    (∃ r, t'.records[g] = some r ∧ r.state = .exposing) ↔ ∃ r, t.records[g] = some r ∧ r.state = .exposing := by
  constructor
  · rintro ⟨r', hr', e⟩
    cases hr : t.records[g] with
    | none => exact absurd e (x.fresh g r' hr hr')
    | some r =>
      obtain ⟨q, hq, turned⟩ := x.follows g r hr
      have same : r' = q := Option.some.inj (hr'.symm.trans hq)
      exact ⟨r, rfl, turned.exposing.1 (same ▸ e)⟩
  · rintro ⟨r, hr, e⟩
    obtain ⟨q, hq, turned⟩ := x.follows g r hr
    exact ⟨q, hq, turned.exposing.2 e⟩

/-- What the current galley of a link is (R111). -/
def CurrentSound (x : Setting) (t : GalleyTable) (i : Fin 4) : Prop :=
  ∀ g, x.galley = some g → x.sets ∧ ∃ r, t.records[g] = some r ∧ r.receives i

theorem TableSound.own (h : TableSound (s.putBench b)) : CurrentSound b.link.setting b.table b.id := by
  intro g hg
  have current := h.current b.id g
  rw [s.putBench_own b rfl] at current
  exact current hg

theorem TableSound.turned (h : TableSound (s.putBench b)) (id : c.id = b.id) (tx : c.link.tx = b.link.tx)
    (turn : TableTurn (some b.id) b.table c.table) (current : CurrentSound c.link.setting c.table b.id) :
    TableSound (s.putBench c) := by
  have order := turn.order h.order
  refine ⟨order.lines, order.done, order.once, order.eligible, fun g => ?_, fun o out closes r hr => ?_,
    fun i g final => ?_, fun i g hg => ?_⟩
  · exact (h.exposing g).trans (turn.exposing g).symm
  · obtain ⟨g, hg, hr⟩ := Option.bind_eq_some_iff.1 hr
    obtain ⟨q, hq, exposing⟩ := (h.exposing g).1 hg
    obtain ⟨q', hq', turned⟩ := turn.follows g q hq
    have same : q' = r := Option.some.inj (hq'.symm.trans hr)
    subst same
    exact (h.closing o out closes q (Option.bind_eq_some_iff.2 ⟨g, hg, hq⟩)).imp turned.ended turned.killed
  · have before : (s.putBench b).links[i].tx.reply = some (.report g true) := by
      by_cases own : b.id = i
      · subst own
        rw [s.putBench_own b rfl, ← tx, ← s.putBench_own c id]
        exact final
      · rw [s.putBench_other b own, ← s.putBench_other c (id ▸ own)]
        exact final
    obtain ⟨r, hr, done, link⟩ := h.final i g before
    obtain ⟨q, hq, turned⟩ := turn.follows g r hr
    exact ⟨q, hq, turned.done done, turned.link.trans link⟩
  · by_cases own : b.id = i
    · subst own
      rw [s.putBench_own c id] at hg ⊢
      exact current g hg
    · rw [s.putBench_other c (id ▸ own)] at hg ⊢
      obtain ⟨sets, r, hr, receives⟩ := h.current i g (by rw [s.putBench_other b own]; exact hg)
      rw [s.putBench_other b own] at sets
      obtain ⟨q, hq, turned⟩ := turn.follows g r hr
      exact ⟨sets, q, hq, turned.receives (by rw [receives.1]; exact fun e => own (Option.some.inj e).symm) i receives⟩

/-- The current galley goes on receiving copy when the table is changed with no regard to a link. -/
theorem CurrentSound.follow {x y : Setting} {t t' : GalleyTable} {i : Fin 4} (h : CurrentSound x t i)
    (turn : TableTurn none t t') (galley : y.galley = x.galley) (sets : x.galley ≠ none → x.sets → y.sets) :
    CurrentSound y t' i := by
  intro g hg
  rw [galley] at hg
  obtain ⟨set, r, hr, receives⟩ := h g hg
  obtain ⟨q, hq, turned⟩ := turn.follows g r hr
  exact ⟨sets (by rw [hg]; exact Option.some_ne_none g) set, q, hq, turned.receives (Option.some_ne_none _) i receives⟩

theorem CurrentSound.of_none {x : Setting} {t : GalleyTable} {i : Fin 4} (h : x.galley = none) : CurrentSound x t i :=
  fun g hg => by rw [h] at hg; cases hg

theorem TableTurn.joinSlot (b : Bench) (g : Fin 32) (i : Fin 8) (j : Option (Fin 4)) :
    TableTurn j b.table (b.joinSlot g i).table := by
  unfold Bench.joinSlot
  split
  · exact .refl _ j
  · split
    · exact .refl _ j
    · exact .modify _ g fun _ => ⟨rfl, rfl, rfl, rfl, rfl, rfl⟩

theorem FlagsOnly.same {f : Galley → Galley} (hf : FlagsOnly f) (r : Galley) :
    (f r).link = r.link ∧ (f r).state = r.state ∧ (f r).ended = r.ended ∧ (f r).killPending = r.killPending ∧
      (f r).cls = r.cls ∧ (f r).lines = r.lines := by
  rw [hf r]
  exact ⟨rfl, rfl, rfl, rfl, rfl, rfl⟩

theorem Galley.receives.live {r : Galley} {i : Fin 4} (h : r.receives i) : r.state ≠ .done := by
  obtain ⟨-, -, -, h | h | h | h⟩ := h <;> simp [h]

theorem Bench.Move.tableSound {ok : Prop} (m : b.Move ok c) (h : TableSound (s.putBench b)) : TableSound (s.putBench c) := by
  have own := h.own
  refine h.turned m.id_eq m.tx_eq ?_ ?_
  · cases m with
    | setting | giveUp | receiver | measure | joinLine | hold => exact .refl _ _
    | flags g f hf => exact .modify _ g hf.same
    | joinSlot g i => exact .joinSlot b g i _
    | appendLine g line galley room =>
      obtain ⟨-, r, hr, receives⟩ := own g galley
      exact .appendLine _ hr room receives.live line
    | endGalley g start galley =>
      obtain ⟨-, r, hr, receives⟩ := own g galley
      exact .endGalley _ hr (congrArg some receives.1)
    | allocate g free => exact .allocate _ free rfl rfl
    | kill g o y target =>
      rcases target with ⟨r, hr, link⟩ | galley
      · exact .kill _ o hr (congrArg some link)
      · obtain ⟨-, r, hr, receives⟩ := own g galley
        exact .kill _ o hr (congrArg some receives.1)
    | resume g target =>
      obtain ⟨r, hr, link⟩ := target
      exact .resume _ hr (congrArg some link)
    | setClass g c => exact .setClass _ g c
  · cases m with
    | setting y quiet => exact own.follow (.refl _ _) quiet.galley quiet.sets
    | giveUp y given => exact .of_none given.galley
    | receiver | measure => exact own
    | flags g f hf => exact own.follow (.modify _ g hf.same) rfl fun _ s => s
    | joinSlot g i =>
      have link := b.joinSlot_link g i
      exact own.follow (.joinSlot b g i none) (by rw [link]) fun _ s => by rw [link]; exact s
    | joinLine g line => exact own.follow (.refl _ _) rfl fun _ s => s
    | appendLine g line galley room =>
      obtain ⟨-, r, hr, receives⟩ := own g galley
      exact own.follow (.appendLine _ hr room receives.live line) rfl fun _ _ => .inl rfl
    | hold g p l galley waits =>
      refine own.follow (.refl _ _) rfl fun _ _ => ?_
      exact waits.elim (fun e => .inr (.inl e)) (fun e => .inr (.inr (.inl e)))
    | endGalley => exact .of_none rfl
    | allocate g free =>
      intro k hk
      injection hk with hk
      subst hk
      exact ⟨.inl rfl, _, set_same _ _ _, rfl, rfl, rfl, .inl rfl⟩
    | kill g o y target left =>
      rcases left with given | ⟨rfl, stays⟩
      · exact .of_none given.galley
      · intro k hk
        obtain ⟨sets, r, hr, receives⟩ := own k hk
        have other : g ≠ k := by
          rintro rfl
          exact absurd (stays hk sets r hr) (by rw [receives.2.1]; decide)
        exact ⟨sets, r, (GalleyTable.kill_other _ other o).trans hr, receives⟩
    | resume g target =>
      intro k hk
      obtain ⟨sets, r, hr, receives⟩ := own k hk
      refine ⟨sets, ?_⟩
      by_cases same : g = k
      · subst same
        rcases Became.resume hr with e | ⟨-, e⟩
        · rw [e]
          exact ⟨r, hr, receives⟩
        · obtain ⟨link, ended, killed, -⟩ := receives
          refine ⟨_, e.new, link, ended, killed, .inr (.inl ?_)⟩
          show (if r.ended then GalleyState.set else .pressed) = .pressed
          rw [ended]
          rfl
      · exact ⟨r, (GalleyTable.resume_other _ same).trans hr, receives⟩
    | setClass g c => exact own.follow (.setClass _ g c) rfl fun _ s => s

theorem Bench.Moves.tableSound {ok : Prop} (m : b.Moves ok c) (h : TableSound (s.putBench b)) : TableSound (s.putBench c) :=
  m.induct (P := fun b => TableSound (s.putBench b)) (fun _ _ one => one.tableSound) h

end

end Sys2Proof.Machine

/-! Every step keeps the Galley Table and the Line Store in order (R110 to R123, R128, R164, R165). -/

namespace Sys2Proof.Machine

/-! ## A table changed around the walk -/

section
variable {s t : State}

/-- The table changed with no regard to a link, the walk's galley kept, and no closing record but for a galley that closes. -/
theorem TableSound.following (h : TableSound s) (links : t.links = s.links) (turn : TableTurn none s.table t.table)
    (galley : t.imaging.galley = s.imaging.galley)
    (closing : ∀ o, t.imaging.out = some o → o.closes →
      s.imaging.out = some o ∨ ∀ r, s.film.galley = some r → r.ended = true ∨ r.killPending = true) : TableSound t := by
  have order := turn.order h.order
  refine ⟨order.lines, order.done, order.once, order.eligible, fun g => ?_, fun o out closes r hr => ?_,
    fun i g final => ?_, fun i => ?_⟩
  · rw [galley]
    exact (h.exposing g).trans (turn.exposing g).symm
  · obtain ⟨g, hg, hr⟩ := Option.bind_eq_some_iff.1 hr
    rw [show t.film.img.galley = s.imaging.galley from galley] at hg
    obtain ⟨q, hq, -⟩ := (h.exposing g).1 hg
    obtain ⟨q', hq', turned⟩ := turn.follows g q hq
    have same : q' = r := Option.some.inj (hq'.symm.trans hr)
    subst same
    have walk : s.film.galley = some q := Option.bind_eq_some_iff.2 ⟨g, hg, hq⟩
    rcases closing o out closes with before | ends
    · exact (h.closing o before closes q walk).imp turned.ended turned.killed
    · exact (ends q walk).imp turned.ended turned.killed
  · rw [links] at final
    obtain ⟨r, hr, done, link⟩ := h.final i g final
    obtain ⟨q, hq, turned⟩ := turn.follows g r hr
    exact ⟨q, hq, turned.done done, turned.link.trans link⟩
  · rw [links]
    exact CurrentSound.follow (h.current i) turn rfl fun _ s => s

theorem TableSound.congr (h : TableSound s) (table : t.table = s.table) (links : t.links = s.links)
    (galley : t.imaging.galley = s.imaging.galley) (out : t.imaging.out = s.imaging.out) : TableSound t :=
  h.following links (table ▸ .refl s.table none) galley fun _ ho _ => .inl (out ▸ ho)

/-- The walk takes up the galley g, or puts it down. -/
theorem TableSound.edit (h : TableSound s) (links : t.links = s.links) {g : Fin 32} {r r' : Galley}
    (e : Became g s.table t.table (some r) (some r')) (live : r.state ≠ .done)
    (receives : ∀ j, r.receives j → r'.receives j) (empty : r'.state = .done → r'.lines = [])
    (exposing : ∀ k, t.imaging.galley = some k ↔
      (k = g ∧ r'.state = .exposing) ∨ (k ≠ g ∧ s.imaging.galley = some k))
    (closing : ∀ o, t.imaging.out = some o → ¬ o.closes) : TableSound t := by
  have order := e.order h.order fun q hq done => by
    injection hq with hq
    exact hq ▸ empty (hq ▸ done)
  refine ⟨order.lines, order.done, order.once, order.eligible, fun k => (exposing k).trans ?_,
    fun o out closes => absurd closes (closing o out), fun i k final => ?_, fun i k hk => ?_⟩
  · by_cases same : k = g
    · subst same
      rw [e.new]
      simp
    · rw [e.others k same, ← h.exposing k]
      simp [same]
  · rw [links] at final
    obtain ⟨q, hq, done, own⟩ := h.final i k final
    have other : k ≠ g := by
      rintro rfl
      have same : r = q := Option.some.inj (e.old.symm.trans hq)
      exact live (same ▸ done)
    exact ⟨q, (e.others k other).trans hq, done, own⟩
  · rw [links] at hk ⊢
    obtain ⟨sets, q, hq, receive⟩ := h.current i k hk
    refine ⟨sets, ?_⟩
    by_cases same : k = g
    · subst same
      have eq : r = q := Option.some.inj (e.old.symm.trans hq)
      exact ⟨r', e.new, receives i (eq ▸ receive)⟩
    · exact ⟨q, (e.others k same).trans hq, receive⟩

/-- One link changed, its setting context kept, and a final report in hand only of a DONE record of its own. -/
theorem TableSound.link (h : TableSound s) (i : Fin 4) {l : Link} (setting : l.setting = s.links[i].setting)
    (final : ∀ g, l.tx.reply = some (.report g true) → ∃ r, s.table.records[g] = some r ∧ r.state = .done ∧ r.link = i) :
    TableSound { s with links := s.links.set i l } := by
  refine ⟨h.lines, h.done, h.once, h.eligible, h.exposing, h.closing, fun j g hj => ?_, fun j g hj => ?_⟩
  · by_cases own : i = j
    · subst own
      rw [set_same] at hj
      exact final g hj
    · rw [set_other _ own] at hj
      exact h.final j g hj
  · by_cases own : i = j
    · subst own
      rw [set_same, setting] at hj ⊢
      exact h.current i g hj
    · rw [set_other _ own] at hj ⊢
      exact h.current j g hj

theorem TableSound.onLink (h : TableSound s) (i : Fin 4) {f : Link → Link} (setting : (f s.links[i]).setting = s.links[i].setting)
    (final : (f s.links[i]).tx.reply = s.links[i].tx.reply ∨ ∀ g, (f s.links[i]).tx.reply ≠ some (.report g true)) :
    TableSound (s.onLink i f) :=
  h.link i setting fun g hg => by
    rcases final with same | not
    · exact h.final i g (same ▸ hg)
    · exact absurd hg (not g)

/-! ## The walk (R164 to R170) -/

/-- The galley that the walk holds is EXPOSING. -/
theorem TableSound.walk (h : TableSound s) {g : Fin 32} (hg : s.imaging.galley = some g) :
    ∃ r, s.table.records[g] = some r ∧ r.state = .exposing := (h.exposing g).1 hg

theorem TableSound.off (h : TableSound s) {g : Fin 32} {r : Galley} (hr : s.table.records[g] = some r)
    (exposing : r.state = .exposing) : g ∉ s.table.eligible := fun m => by
  obtain ⟨q, hq, state, -⟩ := h.eligible g m
  have same : r = q := Option.some.inj (hr.symm.trans hq)
  rw [← same, exposing] at state
  rcases state with e | e <;> cases e

end

section
variable {s : State} {f : Film}

theorem Film.withImg_sound (h : TableSound (s.putFilm f)) {k : Imaging → Imaging} (galley : (k f.img).galley = f.img.galley)
    (out : (k f.img).out = f.img.out) : TableSound (s.putFilm (f.withImg k)) := h.congr rfl rfl galley out

theorem Film.send_sound (h : TableSound (s.putFilm f)) (rec : Record)
    (closing : rec = .killMark ∨ rec = .galleyClose → ∀ r, f.galley = some r → r.ended = true ∨ r.killPending = true) :
    TableSound (s.putFilm (f.send rec)) := by
  refine h.following rfl (.refl _ _) rfl fun o out closes => .inr ?_
  injection out with out
  subst out
  exact closing closes.2

/-- A record that closes no galley sent. -/
theorem Film.send_open (h : TableSound (s.putFilm f)) {rec : Record} (open_ : rec ≠ .killMark ∧ rec ≠ .galleyClose) :
    TableSound (s.putFilm (f.send rec)) :=
  Film.send_sound h rec fun e => e.elim (fun e => absurd e open_.1) (fun e => absurd e open_.2)

theorem Film.flagImageLost_sound (h : TableSound (s.putFilm f)) : TableSound (s.putFilm f.flagImageLost) := by
  unfold Film.flagImageLost
  split
  · exact h
  · next g _ =>
    exact h.following rfl (.modify _ g (flagsOnly_raiseFlag _).same) rfl fun o ho _ => .inl ho

theorem Film.deliver_sound (h : TableSound (s.putFilm f)) (ws : List Word) :
    TableSound (s.putFilm (f.withImg fun m => m.deliver ws)) :=
  h.following rfl (.refl _ _) rfl fun o ho closes => .inl ((QuietUnit.deliver f.img ws).out o ho closes)

theorem Film.deliverBlank_sound (h : TableSound (s.putFilm f)) : TableSound (s.putFilm f.deliverBlank) :=
  Film.flagImageLost_sound (Film.deliver_sound (Film.withImg_sound (k := fun m => { m with mirror := match m.loadEntry with
    | some n => markBlank m.mirror n
    | none => m.mirror }) h rfl rfl) [])

theorem Film.beginLoad_sound (h : TableSound (s.putFilm f)) (n : Fin 64) (slot : Fin 8) (glyph : Nat) :
    TableSound (s.putFilm (f.beginLoad n slot glyph)) := by
  have sent : TableSound (s.putFilm (f.send (.loadOutline n none))) := Film.send_open h (by simp)
  unfold Film.beginLoad
  dsimp only
  split
  · exact Film.deliverBlank_sound sent
  · split
    · exact Film.deliver_sound sent []
    · exact Film.withImg_sound sent rfl rfl

theorem Film.takeUp_sound (h : TableSound (s.putFilm f)) (slot : Fin 8) (p : PlacedGlyph) :
    TableSound (s.putFilm (f.takeUp slot p)) := by
  unfold Film.takeUp
  split
  · next e _ =>
    have touched : TableSound (s.putFilm (f.withImg fun m => { m with mirror := mirrorTouch m.mirror e })) :=
      Film.withImg_sound h rfl rfl
    refine Film.send_open ?_ (by simp [exposeRecord])
    split
    · exact Film.flagImageLost_sound touched
    · exact touched
  · refine Film.beginLoad_sound ?_ _ _ _
    exact Film.withImg_sound h rfl rfl

theorem Film.betweenLines_sound (h : TableSound (s.putFilm f)) : TableSound (s.putFilm f.betweenLines) := by
  have stopped : TableSound (s.putFilm (f.withImg fun m => { m with pos := 0, inProgress := false })) :=
    Film.withImg_sound h rfl rfl
  have one {r : Galley} (hr : (f.withImg fun m => { m with pos := 0, inProgress := false }).galley = some r)
      (ends : r.ended = true ∨ r.killPending = true) :
      ∀ q, (f.withImg fun m => { m with pos := 0, inProgress := false }).galley = some q →
        q.ended = true ∨ q.killPending = true := fun q hq => by
    have same : r = q := Option.some.inj (hr.symm.trans hq)
    exact same ▸ ends
  unfold Film.betweenLines
  dsimp only
  split
  · exact stopped
  · next r hr =>
    split
    · next kill => exact Film.send_sound stopped _ fun _ => one hr (.inr kill)
    · split
      · exact Film.send_open (Film.withImg_sound stopped rfl rfl) (by simp)
      · split
        · next ended => exact Film.send_sound stopped _ fun _ => one hr (.inl ended)
        · exact stopped.following rfl (.refl _ _) rfl fun o ho _ => by cases ho

theorem Film.freeLine_sound (h : TableSound (s.putFilm f)) : TableSound (s.putFilm f.freeLine) := by
  unfold Film.freeLine
  split
  · exact h
  · next g hg =>
    refine Film.betweenLines_sound (h.following rfl ?_ rfl fun o ho _ => .inl ho)
    obtain ⟨r, hr, exposing⟩ := h.walk hg
    rcases Became.freeHeadLine hr with same | ⟨l, rest, -, e⟩
    · rw [show (s.putFilm { f with table := f.table.freeHeadLine g }).table = f.table from same]
      exact .refl _ _
    · refine .of_became e ⟨rfl, fun h => h, Iff.rfl, fun h => h, fun h => h, fun _ _ h => h⟩ fun done => ?_
      exact absurd (exposing.symm.trans done) (by decide)

theorem Film.nextEntry_sound (h : TableSound (s.putFilm f)) : TableSound (s.putFilm f.nextEntry) := by
  unfold Film.nextEntry
  split
  · exact h
  · split
    · exact Film.betweenLines_sound h
    · split
      · exact Film.takeUp_sound (Film.withImg_sound h rfl rfl) _ _
      · exact Film.freeLine_sound h

theorem Film.exposeLoaded_sound (h : TableSound (s.putFilm f)) (n : Fin 64) : TableSound (s.putFilm (f.exposeLoaded n)) := by
  unfold Film.exposeLoaded
  repeat' split
  · exact h
  · exact h
  · exact Film.send_open h (by simp [exposeRecord])
  · exact h

/-- The walk puts its galley down. -/
theorem TableSound.putDown {s t : State} (h : TableSound s) (links : t.links = s.links) {g : Fin 32} {r r' : Galley}
    (hg : s.imaging.galley = some g) (e : Became g s.table t.table (some r) (some r'))
    (left : r'.state = .failed ∨ (r'.state = .done ∧ r'.lines = [])) (receives : ∀ j, r.receives j → r'.receives j)
    (galley : t.imaging.galley = none) (out : t.imaging.out = none) : TableSound t := by
  obtain ⟨q, hq, exposing⟩ := h.walk hg
  have same : r = q := Option.some.inj (e.old.symm.trans hq)
  subst same
  refine h.edit links e (by rw [exposing]; decide) receives (fun done => ?_) (fun k => ?_) fun o ho => ?_
  · rcases left with failed | ⟨-, lines⟩
    · rw [failed] at done; cases done
    · exact lines
  · rw [galley, hg]
    refine ⟨fun e => (by cases e), ?_⟩
    rintro (⟨-, state⟩ | ⟨other, same⟩)
    · rcases left with failed | ⟨done, -⟩
      · rw [failed] at state; cases state
      · rw [done] at state; cases state
    · exact absurd (Option.some.inj same).symm other
  · rw [out] at ho
    cases ho

theorem Film.closeAcked_sound (h : TableSound (s.putFilm f))
    (closes : ∀ r, f.galley = some r → r.ended = true ∨ r.killPending = true) : TableSound (s.putFilm f.closeAcked) := by
  cases hg : f.img.galley with
  | none =>
    unfold Film.closeAcked
    rw [hg]
    exact h.following rfl (.refl _ _) hg.symm fun o ho _ => by cases ho
  | some g =>
    obtain ⟨r, hr, exposing⟩ := h.walk hg
    have e : f.closeAcked.table = f.table.finish g (if r.killPending then r.outcome else .exposed) := by
      unfold Film.closeAcked
      rw [hg]
      exact GalleyTable.closed_of_some hr
    have left : Became g (s.putFilm f).table (s.putFilm f.closeAcked).table (some r)
        (some (r.finished (if r.killPending then r.outcome else .exposed))) := by
      rw [show (s.putFilm f.closeAcked).table = f.closeAcked.table from rfl, e]
      exact .finish hr _
    refine h.putDown rfl hg left (.inr ⟨rfl, rfl⟩) (fun j receives => ?_) rfl rfl
    · obtain ⟨-, notEnded, notKilled, -⟩ := receives
      rcases closes r (Option.bind_eq_some_iff.2 ⟨g, hg, hr⟩) with x | x
      · rw [notEnded] at x; cases x
      · rw [notKilled] at x; cases x

theorem Film.fault_sound (h : TableSound (s.putFilm f)) : TableSound (s.putFilm f.fault) := by
  cases hg : f.img.galley with
  | none =>
    unfold Film.fault
    rw [hg]
    exact h.following rfl (.refl _ _) hg.symm fun o ho _ => by cases ho
  | some g =>
    obtain ⟨r, hr, exposing⟩ := h.walk hg
    have table : (s.putFilm f.fault).table = (s.putFilm f).table.faulted g := by
      show f.fault.table = f.table.faulted g
      unfold Film.fault
      rw [hg]
    rcases Became.faulted hr (h.off hr exposing) with ⟨gone, o, e⟩ | ⟨notKilled, e⟩
    · rw [← table] at e
      refine h.putDown rfl hg e (.inr ⟨rfl, rfl⟩) (fun j receives => ?_) rfl rfl
      obtain ⟨-, notEnded, notKilled, -⟩ := receives
      rcases gone with x | x
      · rw [notKilled] at x; cases x
      · rw [notEnded] at x; cases x
    · rw [← table] at e
      exact h.putDown rfl hg e (.inl rfl)
        (fun j ⟨link, ended, killed, _⟩ => ⟨link, ended, killed, .inr (.inr (.inr rfl))⟩) rfl rfl

theorem Film.acked_sound (h : TableSound (s.putFilm f)) {o : Outstanding} (out : f.img.out = some o) (sound : o.void = false) :
    TableSound (s.putFilm (f.acked o.record)) := by
  have closing (closes : o.record = .killMark ∨ o.record = .galleyClose) := h.closing o out ⟨sound, closes⟩
  cases hr : o.record with
  | cacheClear => exact h.following rfl (.refl _ _) rfl fun o ho _ => by cases ho
  | galleyOpen => exact Film.betweenLines_sound h
  | advance => exact Film.nextEntry_sound h
  | loadOutline => exact Film.exposeLoaded_sound h _
  | exposeGlyph => exact Film.nextEntry_sound h
  | killMark => exact Film.send_sound h _ fun _ => closing (.inl hr)
  | galleyClose => exact Film.closeAcked_sound h (closing (.inr hr))

end

/-! ## The reactions (R119, R120, R143) -/

theorem foldl_betterGalley_mem {t : GalleyTable} {g : Fin 32} (l : List (Fin 32)) {lead : Option (Fin 32)}
    (h : l.foldl (betterGalley t) lead = some g) : lead = some g ∨ g ∈ l := by
  have step (lead : Option (Fin 32)) (k : Fin 32) : betterGalley t lead k = lead ∨ betterGalley t lead k = some k := by
    unfold betterGalley
    repeat' split
    · exact .inl rfl
    · exact .inr rfl
    · exact .inr rfl
    · exact .inl rfl
  induction l generalizing lead with
  | nil => exact .inl h
  | cons k l ih =>
    rcases ih h with e | m
    · rcases step lead k with same | new
      · exact .inl (same ▸ e)
      · rw [new] at e
        exact .inr (List.mem_cons.2 (.inl (Option.some.inj e).symm))
    · exact .inr (List.mem_cons_of_mem k m)

theorem GalleyTable.choose_mem {t : GalleyTable} {g : Fin 32} (h : t.choose = some g) : g ∈ t.eligible :=
  (foldl_betterGalley_mem t.eligible h).elim (fun e => by cases e) fun m => m

section
variable {s : State}

theorem TableSound.wakeWalk (h : TableSound s) : TableSound s.wakeWalk := by
  unfold State.wakeWalk
  split
  · exact Film.betweenLines_sound (s := s) (f := s.film) h
  · exact h

theorem TableSound.selectionRound (h : TableSound s) : TableSound s.selectionRound := by
  rcases s.selectionRound_cases with ⟨e, -⟩ | ⟨g, r, -, free, chosen, hr, e⟩
  · rw [e]
    exact h
  · obtain ⟨q, hq, state, cls⟩ := h.eligible g (GalleyTable.choose_mem chosen)
    have same : r = q := Option.some.inj (hr.symm.trans hq)
    subst same
    rw [e]
    refine h.edit rfl (.select hr) ?_ (fun j ⟨link, ended, killed, _⟩ => ⟨link, ended, killed, .inr (.inr (.inl rfl))⟩)
      (fun done => by cases done) (fun k => ?_) fun o ho closes => ?_
    · rcases state with p | p <;> rw [p] <;> decide
    · rw [free]
      exact ⟨fun e => .inl ⟨(Option.some.inj e).symm, rfl⟩, by
        rintro (⟨rfl, -⟩ | ⟨-, e⟩)
        · rfl
        · cases e⟩
    · injection ho with ho
      subst ho
      rcases closes.2 with c | c <;> cases c

theorem TableSound.replyOn (h : TableSound s) (i : Fin 4) : TableSound (s.replyOn i) := by
  unfold State.replyOn
  dsimp only
  rcases takeReply_cases s.table i s.links[i] with ⟨e, -⟩ | ⟨m, -, e⟩ | ⟨e, -, -⟩ | ⟨g, r, -, hr, own, e⟩
  · rw [e]
    exact h.link i rfl fun g hg => h.final i g hg
  · rw [e]
    exact h.link i rfl fun g hg => by cases hg
  · rw [e]
    exact h.link i rfl fun g hg => h.final i g hg
  · rw [e]
    have marked : TableSound { s with table := s.table.modify g fun r => { r with mark := false } } :=
      h.following rfl (.modify _ g fun _ => ⟨rfl, rfl, rfl, rfl, rfl, rfl⟩) rfl fun o ho _ => .inl ho
    refine marked.link i rfl fun k hk => ?_
    injection hk with hk
    injection hk with index final
    subst index
    exact ⟨_, GalleyTable.modify_same hr _, of_decide_eq_true final, own⟩

theorem TableSound.noticeStall (h : TableSound s) : TableSound s.noticeStall :=
  ⟨h.lines, h.done, h.once, h.eligible, h.exposing, h.closing, h.final, h.current⟩

theorem TableSound.settle (h : TableSound s) : TableSound s.settle := by
  have given : TableSound s.wakeWalk.selectionRound.giveBus := by
    rw [State.giveBus_eq]
    exact h.wakeWalk.selectionRound.congr rfl rfl rfl rfl
  have replied : TableSound s.wakeWalk.selectionRound.giveBus.replies :=
    (((given.replyOn 0).replyOn 1).replyOn 2).replyOn 3
  exact replied.noticeStall

/-! ## Records freed and tables emptied (R128, R160, R161) -/

/-- The final report of a DONE galley has been sent: its record is free. -/
theorem TableSound.freeRecord (h : TableSound s) {g : Fin 32} {r : Galley} (hr : s.table.records[g] = some r)
    (done : r.state = .done) (sent : ∀ (i : Fin 4) (g' : Fin 32), s.links[i].tx.reply = some (.report g' true) → g' ≠ g) :
    TableSound (s.freeRecord g) := by
  have notListed : ¬ Listed (some r) := by
    rintro ⟨q, e, state, -⟩
    injection e with e
    rw [← e, done] at state
    rcases state with x | x <;> cases x
  have table : (s.freeRecord g).table =
      { s.table with records := s.table.records.set g none, order := s.table.order.filter (· ≠ g) } := by
    unfold State.freeRecord
    simp only [hr]
  have e : Became g s.table (s.freeRecord g).table (some r) none := by
    rw [table]
    refine ⟨hr, set_same _ _ _, fun k hk => set_other _ (Ne.symm hk) _, ?_, fun n => n, fun _ _ m => m,
      fun m => .inr ⟨m, fun l => absurd l notListed⟩⟩
    show s.table.freeLines + 0 = s.table.freeLines + r.lines.length
    rw [h.done g r hr done]
    rfl
  have order := e.order h.order fun q hq => by cases hq
  have galley : (s.freeRecord g).imaging.galley = s.imaging.galley := by rw [State.freeRecord_eq]
  have out : (s.freeRecord g).imaging.out = s.imaging.out := by rw [State.freeRecord_eq]
  have links : (s.freeRecord g).links = s.links := by rw [State.freeRecord_eq]
  have stands {k : Fin 32} {q : Galley} (hq : s.table.records[k] = some q) (other : k ≠ g) :
      (s.freeRecord g).table.records[k] = some q := (e.others k other).trans hq
  refine ⟨order.lines, order.done, order.once, order.eligible, fun k => ?_, fun o ho closes q hq => ?_,
    fun i k final => ?_, fun i k hk => ?_⟩
  · rw [galley, h.exposing k]
    by_cases same : k = g
    · subst same
      rw [e.new, hr]
      simp [done]
    · rw [e.others k same]
  · obtain ⟨k, hk, hq⟩ := Option.bind_eq_some_iff.1 hq
    rw [show (s.freeRecord g).film.img.galley = s.imaging.galley from galley] at hk
    have other : k ≠ g := by
      rintro rfl
      rw [show (s.freeRecord k).film.table.records[k] = none from e.new] at hq
      cases hq
    rw [out] at ho
    exact h.closing o ho closes q (Option.bind_eq_some_iff.2 ⟨k, hk, (e.others k other).symm.trans hq⟩)
  · rw [links] at final
    obtain ⟨q, hq, doneQ, own⟩ := h.final i k final
    exact ⟨q, stands hq (sent i k final), doneQ, own⟩
  · rw [links] at hk ⊢
    obtain ⟨sets, q, hq, receives⟩ := h.current i k hk
    refine ⟨sets, q, stands hq ?_, receives⟩
    rintro rfl
    have same : r = q := Option.some.inj (hr.symm.trans hq)
    exact receives.live (same ▸ done)

/-- With an empty table, no galley at the walk, and links that hold no galley, the order is trivial. -/
theorem TableSound.of_empty (table : s.table = emptyTable) (walk : s.imaging.galley = none)
    (links : ∀ i : Fin 4, s.links[i].setting.galley = none ∧ s.links[i].tx.reply = none) : TableSound s := by
  have empty (g : Fin 32) : s.table.records[g] = none := by
    rw [table]
    exact Vector.getElem_replicate _
  refine ⟨?_, fun g r hr => ?_, ?_, fun g m => ?_, fun g => ?_, fun o _ _ r hr => ?_, fun i g hg => ?_, fun i g hg => ?_⟩
  · rw [table]
    decide
  · rw [empty g] at hr
    cases hr
  · rw [table]
    exact List.nodup_nil
  · rw [table] at m
    cases m
  · rw [walk, empty g]
    exact ⟨fun e => (by cases e), fun ⟨r, e, _⟩ => (by cases e)⟩
  · obtain ⟨g, hg, -⟩ := Option.bind_eq_some_iff.1 hr
    rw [show s.film.img.galley = none from walk] at hg
    cases hg
  · rw [(links i).2] at hg
    cases hg
  · rw [(links i).1] at hg
    cases hg

theorem State.putBench_bench (s : State) (i : Fin 4) : s.putBench (s.bench i) = s := s.putBench_bench_table i s.table

theorem Imaging.afterLibraryReset_galley (m : Imaging) : m.afterLibraryReset.galley = none := by
  unfold Imaging.afterLibraryReset
  dsimp only
  repeat' split
  all_goals rfl

theorem Imaging.afterPowerOn_galley (m : Imaging) : m.afterPowerOn.galley = none := by
  unfold Imaging.afterPowerOn
  split <;> rfl

end

/-! ## Every step -/

theorem tableSound_kept : KeptByWork TableSound where
  frame h same := h.congr same.table same.links (by rw [same.imaging]) (by rw [same.imaging])
  settle _ h := h.settle
  powerOn s _ := TableSound.settle (.of_empty rfl (Imaging.afterPowerOn_galley _) fun i => by
    show (s.powerCutStore.links.map Link.afterPowerOn)[i].setting.galley = none ∧
      (s.powerCutStore.links.map Link.afterPowerOn)[i].tx.reply = none
    rw [Fin.getElem_fin, Vector.getElem_map]
    exact ⟨rfl, rfl⟩)
  reset s _ := .of_empty rfl (Imaging.afterLibraryReset_galley _) fun i => by
    show (s.links.map Link.afterLibraryReset)[i].setting.galley = none ∧
      (s.links.map Link.afterLibraryReset)[i].tx.reply = none
    rw [Fin.getElem_fin, Vector.getElem_map]
    exact ⟨rfl, rfl⟩
  startCopy s i b o _ _ h := h.congr (by rw [State.startCopy_eq]) (by rw [State.startCopy_eq]) (by rw [State.startCopy_eq])
    (by rw [State.startCopy_eq])
  withdraw s i _ _ h := h.congr (by rw [State.withdraw_eq]) (by rw [State.withdraw_eq]) (by rw [State.withdraw_eq])
    (by rw [State.withdraw_eq])
  copyRead s job _ h := h.congr (by rw [State.copyRead_eq]) (by rw [State.copyRead_eq]) (by rw [State.copyRead_eq])
    (by rw [State.copyRead_eq])
  loseSlots s p h := h.congr (by rw [State.loseSlots_eq]) (by rw [State.loseSlots_eq]) (by rw [State.loseSlots_eq])
    (by rw [State.loseSlots_eq])
  cutFetch s p h := by
    unfold State.cutFetch
    repeat' split
    · exact h
    · exact Film.deliverBlank_sound (s := s) (f := s.film) h
    · exact h
  moves s i c m h := by
    have start : TableSound (s.putBench (s.bench i)) := by rwa [s.putBench_bench]
    exact (m False False.elim).tableSound start
  receiver s i f _ h := h.onLink i rfl (.inl rfl)
  readyOn s i h := h.onLink i rfl (.inl (by unfold Transmitter.readyOn; split <;> rfl))
  readyOff s i h := h.onLink i rfl (.inl rfl)
  nextByte s i _ _ h := h.onLink i rfl (.inl (by unfold Transmitter.nextByte; split <;> rfl))
  completeReply s i _ h := by
    have finished : TableSound (s.onLink i fun l => { l with tx := l.tx.finish }) :=
      h.onLink i rfl (.inr fun _ e => by cases e)
    unfold State.completeReply
    dsimp only
    split
    · exact finished
    · exact finished.onLink i rfl (.inl rfl)
    · exact finished
    · next g tag =>
      obtain ⟨r, hr, done, own⟩ := h.final i g tag
      refine finished.freeRecord hr done fun j k final => ?_
      rintro rfl
      by_cases same : i = j
      · subst same
        rw [State.onLink, modifyAt_same] at final
        cases final
      · rw [State.onLink, modifyAt_other _ same] at final
        obtain ⟨q, hq, -, other⟩ := h.final j k final
        have eq : r = q := Option.some.inj (hr.symm.trans hq)
        exact same (own.symm.trans (eq ▸ other))
  acked s o out sound h := Film.acked_sound (s := s) (f := s.film) h out sound
  fault s h := Film.fault_sound (s := s) (f := s.film) h
  unit s m quiet h := h.following rfl (.refl _ _) quiet.galley fun o ho closes => .inl (quiet.out o ho closes)

/-- Settles O59: the Setter's moves, the walk and the reactions each keep the table in order. -/
theorem stepKeepsTableSound : Obligations.StepKeepsTableSound := by
  unfold Obligations.StepKeepsTableSound
  exact fun _ _ => tableSound_kept.events.step

end Sys2Proof.Machine

/-! Every step keeps the Font Directory in order, with a reference count of the galleys that use each slot (R1, R5, R9, R12, R16,
R18). -/

namespace Sys2Proof.Machine

/-! ## Users of a slot (R16, R18) -/

/-- The font-use set of a record of a table; a free record uses nothing. -/
def GalleyTable.useSetOf (t : GalleyTable) (g : Fin 32) : List (Fin 8) :=
  match t.records[g] with
  | none => []
  | some r => r.useSet

/-- Two tables with the same font-use sets. -/
def SameUses (t t' : GalleyTable) : Prop := ∀ g, t'.useSetOf g = t.useSetOf g

section
variable {t t' u : GalleyTable} {g : Fin 32} {r r' : Galley}

theorem GalleyTable.useSetOf_some (h : t.records[g] = some r) : t.useSetOf g = r.useSet := by
  unfold GalleyTable.useSetOf
  rw [h]

theorem GalleyTable.useSetOf_none (h : t.records[g] = none) : t.useSetOf g = [] := by
  unfold GalleyTable.useSetOf
  rw [h]

theorem GalleyTable.useSetOf_congr (h : t'.records[g] = t.records[g]) : t'.useSetOf g = t.useSetOf g := by
  unfold GalleyTable.useSetOf
  rw [h]

theorem GalleyTable.uses_eq (t : GalleyTable) (g : Fin 32) (i : Fin 8) : t.uses g i = decide (i ∈ t.useSetOf g) := by
  unfold GalleyTable.uses GalleyTable.useSetOf
  cases t.records[g] <;> simp

theorem SameUses.refl (t : GalleyTable) : SameUses t t := fun _ => rfl

theorem SameUses.trans (a : SameUses t t') (b : SameUses t' u) : SameUses t u := fun g => (b g).trans (a g)

theorem SameUses.of_records (h : t'.records = t.records) : SameUses t t' := fun g => GalleyTable.useSetOf_congr (by rw [h])

theorem SameUses.of_became (e : Became g t t' (some r) (some r')) (used : r'.useSet = r.useSet) : SameUses t t' := fun h => by
  by_cases same : h = g
  · subst same
    rw [GalleyTable.useSetOf_some e.new, GalleyTable.useSetOf_some e.old, used]
  · exact GalleyTable.useSetOf_congr (e.others h same)

theorem SameUses.appendLine (t : GalleyTable) (g : Fin 32) (room : t.freeLines ≠ 0) (line : ClosedLine) :
    SameUses t (t.appendLine g line) := by
  cases hr : t.records[g] with
  | none =>
    unfold GalleyTable.appendLine
    rw [hr]
    exact .refl t
  | some r => exact .of_became (.appendLine hr room line) (r.appendLine_link_useSet g line).2

/-! ## Lines and font-use sets kept (R16, R66) -/

/-- The lines of a record of a table; a free record holds none. -/
def GalleyTable.linesOf (t : GalleyTable) (g : Fin 32) : List LineRecord :=
  match t.records[g] with
  | none => []
  | some r => r.lines

theorem GalleyTable.linesOf_some (h : t.records[g] = some r) : t.linesOf g = r.lines := by
  unfold GalleyTable.linesOf
  rw [h]

theorem GalleyTable.linesOf_none (h : t.records[g] = none) : t.linesOf g = [] := by
  unfold GalleyTable.linesOf
  rw [h]

theorem GalleyTable.linesOf_congr (h : t'.records[g] = t.records[g]) : t'.linesOf g = t.linesOf g := by
  unfold GalleyTable.linesOf
  rw [h]

/-- Two tables with the same font-use sets, and no line in the second that is not in the first. -/
structure CopyKept (t t' : GalleyTable) : Prop where
  uses : SameUses t t'
  lines : ∀ g, ∀ l ∈ t'.linesOf g, l ∈ t.linesOf g

theorem CopyKept.refl (t : GalleyTable) : CopyKept t t := ⟨.refl t, fun _ _ m => m⟩

theorem CopyKept.trans (a : CopyKept t t') (b : CopyKept t' u) : CopyKept t u :=
  ⟨a.uses.trans b.uses, fun g l m => a.lines g l (b.lines g l m)⟩

theorem CopyKept.of_records (h : t'.records = t.records) : CopyKept t t' :=
  ⟨.of_records h, fun g l m => by rwa [GalleyTable.linesOf_congr (t := t) (by rw [h])] at m⟩

theorem CopyKept.of_became (e : Became g t t' (some r) (some r')) (used : r'.useSet = r.useSet)
    (lines : ∀ l ∈ r'.lines, l ∈ r.lines) : CopyKept t t' := by
  refine ⟨.of_became e used, fun h l m => ?_⟩
  by_cases same : h = g
  · subst same
    rw [GalleyTable.linesOf_some e.new] at m
    rw [GalleyTable.linesOf_some e.old]
    exact lines l m
  · rwa [GalleyTable.linesOf_congr (e.others h same)] at m

theorem CopyKept.modify (t : GalleyTable) (g : Fin 32) {f : Galley → Galley}
    (hf : ∀ r, (f r).useSet = r.useSet ∧ (f r).lines = r.lines) : CopyKept t (t.modify g f) := by
  refine ⟨fun h => ?_, fun h l m => ?_⟩
  · by_cases same : g = h
    · subst same
      cases hr : t.records[g] with
      | none => rw [GalleyTable.modify_of_none hr]
      | some r =>
        rw [GalleyTable.useSetOf_some (GalleyTable.modify_same hr f), GalleyTable.useSetOf_some hr, (hf r).1]
    · exact GalleyTable.useSetOf_congr (t.modify_other same f)
  · by_cases same : g = h
    · subst same
      cases hr : t.records[g] with
      | none => rwa [GalleyTable.modify_of_none hr] at m
      | some r =>
        rw [GalleyTable.linesOf_some (GalleyTable.modify_same hr f), (hf r).2] at m
        rwa [GalleyTable.linesOf_some hr]
    · rwa [GalleyTable.linesOf_congr (t.modify_other same f)] at m

theorem CopyKept.kill (t : GalleyTable) (g : Fin 32) (o : GalleyOutcome) : CopyKept t (t.kill g o) := by
  cases hr : t.records[g] with
  | none =>
    unfold GalleyTable.kill
    rw [hr]
    exact .refl t
  | some r =>
    rcases Became.kill hr o with same | ⟨-, e⟩ | ⟨-, e⟩
    · rw [same]; exact .refl t
    · exact .of_became e rfl fun _ m => m
    · exact .of_became e rfl fun _ m => absurd m List.not_mem_nil

theorem Galley.endedByCode_useSet (r : Galley) : r.endedByCode.useSet = r.useSet := by
  unfold Galley.endedByCode
  split <;> rfl

theorem Galley.endedByCode_lines (r : Galley) : r.endedByCode.lines = r.lines := by
  unfold Galley.endedByCode
  split <;> rfl

theorem CopyKept.endGalley (t : GalleyTable) (g : Fin 32) : CopyKept t (t.endGalley g) := by
  cases hr : t.records[g] with
  | none =>
    unfold GalleyTable.endGalley
    rw [hr]
    exact .refl t
  | some r => exact .of_became (.endGalley hr) r.endedByCode_useSet fun l m => by rwa [r.endedByCode_lines] at m

theorem CopyKept.resume (t : GalleyTable) (g : Fin 32) : CopyKept t (t.resume g) := by
  cases hr : t.records[g] with
  | none =>
    unfold GalleyTable.resume
    rw [hr]
    exact .refl t
  | some r =>
    rcases Became.resume hr with same | ⟨-, e⟩
    · rw [same]; exact .refl t
    · exact .of_became e rfl fun _ m => m

theorem CopyKept.setClass (t : GalleyTable) (g : Fin 32) (c : Nat) : CopyKept t (t.setClass g c) := by
  cases hr : t.records[g] with
  | none =>
    unfold GalleyTable.setClass
    rw [hr]
    exact .refl t
  | some r =>
    rcases Became.setClass hr c with same | ⟨-, e⟩
    · rw [same]; exact .refl t
    · exact .of_became e rfl fun _ m => m

theorem CopyKept.allocate (t : GalleyTable) (free : t.records[g] = none) {x : Galley} (unused : x.useSet = [])
    (empty : x.lines = []) : CopyKept t (t.allocate g x) := by
  have new : (t.allocate g x).records[g] = some x := set_same _ _ _
  have others {h : Fin 32} (other : g ≠ h) : (t.allocate g x).records[h] = t.records[h] := set_other _ other _
  refine ⟨fun h => ?_, fun h l m => ?_⟩
  · by_cases same : g = h
    · subst same
      rw [GalleyTable.useSetOf_none free, GalleyTable.useSetOf_some new, unused]
    · exact GalleyTable.useSetOf_congr (others same)
  · by_cases same : g = h
    · subst same
      rw [GalleyTable.linesOf_some new, empty] at m
      cases m
    · rwa [GalleyTable.linesOf_congr (others same)] at m

theorem CopyKept.freeHeadLine (t : GalleyTable) (g : Fin 32) : CopyKept t (t.freeHeadLine g) := by
  cases hr : t.records[g] with
  | none =>
    unfold GalleyTable.freeHeadLine
    rw [hr]
    exact .refl t
  | some r =>
    rcases Became.freeHeadLine hr with same | ⟨l, rest, lines, e⟩
    · rw [same]; exact .refl t
    · exact .of_became e rfl fun _ m => lines ▸ List.mem_cons_of_mem l m

theorem CopyKept.finish (t : GalleyTable) (g : Fin 32) (o : GalleyOutcome) : CopyKept t (t.finish g o) := by
  cases hr : t.records[g] with
  | none =>
    unfold GalleyTable.finish GalleyTable.returnLines
    rw [show (t.leaveEligible g).records[g] = none from hr]
    refine CopyKept.trans (.of_records (t' := t.leaveEligible g) rfl) (.modify _ g ?_)
    exact fun _ => ⟨rfl, rfl⟩
  | some r => exact .of_became (.finish hr o) rfl fun l m => absurd m List.not_mem_nil

theorem CopyKept.closed (t : GalleyTable) (g : Fin 32) : CopyKept t (t.closed g) := by
  unfold GalleyTable.closed
  split
  · exact .refl t
  · exact .finish t g _

theorem CopyKept.faulted (t : GalleyTable) (g : Fin 32) : CopyKept t (t.faulted g) := by
  unfold GalleyTable.faulted
  repeat' split
  · exact .refl t
  · exact .finish t g _
  · exact .finish t g _
  · exact .modify t g fun _ => ⟨rfl, rfl⟩

theorem CopyKept.select (t : GalleyTable) (g : Fin 32) : CopyKept t (t.select g) :=
  CopyKept.trans (.of_records (t' := t.leaveEligible g) rfl)
    (.modify (f := Galley.exposed) (t.leaveEligible g) g fun _ => ⟨rfl, rfl⟩)

theorem SameUses.users (h : SameUses t t') : t'.users = t.users := by
  have same : (fun g i => t'.uses g i) = fun g i => t.uses g i := by
    funext g i
    rw [GalleyTable.uses_eq, GalleyTable.uses_eq, h g]
  funext i
  unfold GalleyTable.users
  rw [show (fun g => t'.uses g i) = fun g => t.uses g i from funext fun g => congrFun (congrFun same g) i]

end

/-- The count of a list after one place of its predicate changed. -/
theorem countP_edit {α : Type} {l : List α} (nodup : l.Nodup) {g : α} (hg : g ∈ l) {p q : α → Bool}
    (others : ∀ a, a ≠ g → q a = p a) : l.countP q + (p g).toNat = l.countP p + (q g).toNat := by
  induction l with
  | nil => cases hg
  | cons a l ih =>
    obtain ⟨fresh, nodup⟩ := List.nodup_cons.1 nodup
    have one (f : α → Bool) : (a :: l).countP f = l.countP f + (f a).toNat := by
      cases h : f a <;> simp [h]
    rw [one p, one q]
    rcases List.mem_cons.1 hg with rfl | hg
    · have rest : l.countP q = l.countP p := List.countP_congr fun b hb => by
        rw [others b (by rintro rfl; exact fresh hb)]
      omega
    · rw [others a (by rintro rfl; exact fresh hg)]
      have := ih nodup hg
      omega

theorem GalleyTable.users_edit {t t' : GalleyTable} {g : Fin 32} (others : ∀ h, h ≠ g → t'.records[h] = t.records[h])
    (i : Fin 8) : t'.users i + (t.uses g i).toNat = t.users i + (t'.uses g i).toNat := by
  have nodup : recordIds.Nodup := by decide
  refine countP_edit (p := fun g => t.uses g i) (q := fun g => t'.uses g i) nodup (mem_recordIds g) fun h hh => ?_
  rw [GalleyTable.uses_eq, GalleyTable.uses_eq, GalleyTable.useSetOf_congr (others h hh)]

/-! ## The directory slot by slot (R1, R5, R9, R12) -/

/-- A slot that n galleys use: an EMPTY record is empty, the count is n, a slot not in service has none and a RETIRING one has
some. -/
structure SlotSound (x : Slot) (n : Nat) : Prop where
  empty : x.state = .empty → x = emptySlotRecord
  count : x.refCount = n
  unused : x.state = .empty ∨ x.state = .loading → n = 0
  retiring : x.state = .retiring → 0 < n

/-- The directory in order, the slot i used by users i galleys. -/
structure Directory (slots : Vector Slot 8) (copy : Option CopyJob) (users : Fin 8 → Nat) : Prop where
  loading : ∀ i : Fin 8, slots[i].state = .loading ↔ ∃ job, copy = some job ∧ job.slot = i
  unique : ∀ i j : Fin 8, slots[i].state = .resident → slots[j].state = .resident →
    slots[i].fontNumber = slots[j].fontNumber → i = j
  slot : ∀ i : Fin 8, SlotSound slots[i] (users i)

/-- The Font Directory and the font-use sets in order. -/
def DirectoryCounts (s : State) : Prop :=
  Directory s.slots s.copy s.table.users ∧ ∀ g, (s.table.useSetOf g).Nodup

theorem directoryCounts_iff (s : State) : DirectoryCounts s ↔ DirectorySound s ∧ CountsSound s := by
  constructor
  · rintro ⟨d, nodup⟩
    refine ⟨⟨d.loading, d.unique, fun i => (d.slot i).empty⟩, fun i => (d.slot i).count, fun g r hr => ?_,
      fun i h => ?_, fun i h => ?_⟩
    · rw [← GalleyTable.useSetOf_some hr]
      exact nodup g
    · rw [(d.slot i).count]
      exact (d.slot i).unused h
    · rw [(d.slot i).count]
      exact (d.slot i).retiring h
  · rintro ⟨d, c⟩
    refine ⟨⟨d.loading, d.unique, fun i => ⟨d.empty i, c.count i, fun h => ?_, fun h => ?_⟩⟩, fun g => ?_⟩
    · rw [← c.count i]
      exact c.unused i h
    · rw [← c.count i]
      exact c.retiring i h
    · cases hr : s.table.records[g] with
      | none => rw [GalleyTable.useSetOf_none hr]; exact List.nodup_nil
      | some r => rw [GalleyTable.useSetOf_some hr]; exact c.nodup g r hr

theorem DirectoryCounts.congr {s t : State} (h : DirectoryCounts s) (slots : t.slots = s.slots) (copy : t.copy = s.copy)
    (uses : SameUses s.table t.table) : DirectoryCounts t := by
  obtain ⟨d, nodup⟩ := h
  refine ⟨?_, fun g => by rw [uses g]; exact nodup g⟩
  rw [slots, copy, uses.users]
  exact d

section
variable {slots : Vector Slot 8} {copy copy' : Option CopyJob} {users users' : Fin 8 → Nat} {i : Fin 8} {x : Slot} {job : CopyJob}

theorem SlotSound.emptyRecord : SlotSound emptySlotRecord 0 :=
  ⟨fun _ => rfl, rfl, fun _ => rfl, fun h => by cases h⟩

theorem SlotSound.of_loading (state : x.state = .loading) (count : x.refCount = 0) : SlotSound x 0 where
  empty e := absurd (state.symm.trans e) (by decide)
  count := count
  unused _ := rfl
  retiring e := absurd (state.symm.trans e) (by decide)

theorem SlotSound.of_resident {n : Nat} (state : x.state = .resident) (count : x.refCount = n) : SlotSound x n where
  empty e := absurd (state.symm.trans e) (by decide)
  count := count
  unused e := by rcases e with e | e <;> exact absurd (state.symm.trans e) (by decide)
  retiring e := absurd (state.symm.trans e) (by decide)

theorem SlotSound.of_retiring {n : Nat} (state : x.state = .retiring) (count : x.refCount = n) (some : 0 < n) : SlotSound x n where
  empty e := absurd (state.symm.trans e) (by decide)
  count := count
  unused e := by rcases e with e | e <;> exact absurd (state.symm.trans e) (by decide)
  retiring _ := some

/-- One slot changed, with the copy and the slot's users. -/
theorem Directory.set (h : Directory slots copy users) (sound : SlotSound x (users' i))
    (others : ∀ j, j ≠ i → users' j = users j) (loading : x.state = .loading ↔ ∃ job, copy' = some job ∧ job.slot = i)
    (copies : ∀ j, j ≠ i → ((∃ job, copy' = some job ∧ job.slot = j) ↔ ∃ job, copy = some job ∧ job.slot = j))
    (unique : x.state = .resident → ∀ j : Fin 8, j ≠ i → slots[j].state = .resident → slots[j].fontNumber ≠ x.fontNumber) :
    Directory (slots.set i x) copy' users' where
  loading j := by
    by_cases same : j = i
    · subst same
      rw [set_same]
      exact loading
    · rw [set_other _ (Ne.symm same), copies j same]
      exact h.loading j
  unique j k := by
    by_cases hj : j = i
    · by_cases hk : k = i
      · exact fun _ _ _ => hj.trans hk.symm
      · subst hj
        rw [set_same, set_other _ (Ne.symm hk)]
        exact fun a b e => absurd e.symm (unique a k hk b)
    · by_cases hk : k = i
      · subst hk
        rw [set_same, set_other _ (Ne.symm hj)]
        exact fun a b e => absurd e (unique b j hj a)
      · rw [set_other _ (Ne.symm hj), set_other _ (Ne.symm hk)]
        exact h.unique j k
  slot j := by
    by_cases same : j = i
    · subst same
      rw [set_same]
      exact sound
    · rw [set_other _ (Ne.symm same), others j same]
      exact h.slot j

/-- One slot changed that was not LOADING and is not. -/
theorem Directory.set_idle (h : Directory slots copy users) (sound : SlotSound x (users' i))
    (others : ∀ j, j ≠ i → users' j = users j) (before : slots[i].state ≠ .loading) (after : x.state ≠ .loading)
    (unique : x.state = .resident → slots[i].state = .resident ∧ x.fontNumber = slots[i].fontNumber) :
    Directory (slots.set i x) copy users' := by
  refine h.set sound others ⟨fun e => absurd e after, fun e => absurd ((h.loading i).2 e) before⟩ (fun _ _ => Iff.rfl) ?_
  intro resident j other hj e
  obtain ⟨was, same⟩ := unique resident
  exact other (h.unique j i hj was (e.trans same))

/-- The copy and its slot given up, the slot EMPTY (R8). -/
theorem Directory.fail (h : Directory slots copy users) (hc : copy = some job) :
    Directory (clearSlot slots job.slot) none users := by
  have loading : slots[job.slot].state = .loading := (h.loading job.slot).2 ⟨job, hc, rfl⟩
  have none : users job.slot = 0 := (h.slot job.slot).unused (.inr loading)
  refine h.set ?_ (fun _ _ => rfl) ⟨fun e => (by cases e), fun ⟨_, e, _⟩ => (by cases e)⟩ (fun j other => ?_)
    fun e => by cases e
  · rw [none]
    exact .emptyRecord
  · refine ⟨fun ⟨_, e, _⟩ => (by cases e), fun ⟨k, e, same⟩ => ?_⟩
    rw [hc] at e
    exact absurd (Option.some.inj e ▸ same).symm other

/-- The copy goes on with its slot still LOADING and its count 0 (R6). -/
theorem Directory.goOn (h : Directory slots copy users) (hc : copy = some job) {job' : CopyJob} (same : job'.slot = job.slot)
    (state : x.state = .loading) (count : x.refCount = slots[job.slot].refCount) :
    Directory (slots.set job.slot x) (some job') users := by
  have loading : slots[job.slot].state = .loading := (h.loading job.slot).2 ⟨job, hc, rfl⟩
  have none : users job.slot = 0 := (h.slot job.slot).unused (.inr loading)
  refine h.set (none ▸ .of_loading state ((count.trans (h.slot job.slot).count).trans none)) (fun _ _ => rfl)
    ⟨fun _ => ⟨job', rfl, same⟩, fun _ => state⟩ (fun j _ => ?_) fun e => absurd (state.symm.trans e) (by decide)
  rw [hc]
  exact ⟨fun ⟨k, e, hk⟩ => ⟨job, rfl, by rw [← hk, ← Option.some.inj e, same]⟩,
    fun ⟨k, e, hk⟩ => ⟨job', rfl, by rw [← hk, ← Option.some.inj e, same]⟩⟩

/-- A slot withdrawn (R9, R11, R12, R20). -/
def withdrawSlot (x : Slot) : Slot := if x.refCount = 0 then emptySlotRecord else { x with state := .retiring }

theorem withdrawSlot_state (x : Slot) : (withdrawSlot x).state = .empty ∨ (withdrawSlot x).state = .retiring := by
  unfold withdrawSlot
  split
  · exact .inl rfl
  · exact .inr rfl

theorem SlotSound.withdraw {n : Nat} (count : x.refCount = n) : SlotSound (withdrawSlot x) n := by
  unfold withdrawSlot
  split
  · next zero =>
    rw [← count, zero]
    exact .emptyRecord
  · next some =>
    exact .of_retiring rfl count (by omega)

/-- A slot in service withdrawn, whatever becomes of its image. -/
theorem Directory.withdraw (h : Directory slots copy users) (before : slots[i].state = .resident)
    (count : x.refCount = slots[i].refCount) : Directory (slots.set i (withdrawSlot x)) copy users := by
  have gone : (withdrawSlot x).state ≠ .loading ∧ (withdrawSlot x).state ≠ .resident := by
    rcases withdrawSlot_state x with e | e <;> rw [e] <;> decide
  exact h.set_idle (.withdraw (count.trans (h.slot i).count)) (fun _ _ => rfl) (by rw [before]; decide) gone.1
    fun e => absurd e gone.2

/-- A copy complete (R9): the slot RESIDENT, no other of its number. -/
theorem Directory.complete (h : Directory slots copy users) (hc : copy = some job) (state : x.state = .resident)
    (count : x.refCount = 0) (fresh : ∀ j : Fin 8, j ≠ job.slot → slots[j].state = .resident → slots[j].fontNumber ≠ x.fontNumber) :
    Directory (slots.set job.slot x) none users := by
  have loading : slots[job.slot].state = .loading := (h.loading job.slot).2 ⟨job, hc, rfl⟩
  have none : users job.slot = 0 := (h.slot job.slot).unused (.inr loading)
  refine h.set (.of_resident state (count.trans none.symm)) (fun _ _ => rfl)
    ⟨fun e => absurd (state.symm.trans e) (by decide), fun ⟨_, e, _⟩ => (by cases e)⟩ (fun j other => ?_) fun _ => fresh
  refine ⟨fun ⟨_, e, _⟩ => (by cases e), fun ⟨k, e, same⟩ => ?_⟩
  rw [hc] at e
  exact absurd (Option.some.inj e ▸ same).symm other

end

/-! ## The operations of the directory -/

section
variable {s : State} {i : Fin 8} {job : CopyJob}

theorem State.withdraw_slots (s : State) (i : Fin 8) : (s.withdraw i).slots = modifyAt s.slots i withdrawSlot := by
  unfold State.withdraw modifyAt withdrawSlot
  split <;> rfl

theorem DirectoryCounts.withdraw (h : DirectoryCounts s) (resident : s.slots[i].state = .resident) :
    DirectoryCounts (s.withdraw i) := by
  obtain ⟨d, nodup⟩ := h
  have slots := s.withdraw_slots i
  rw [State.withdraw_eq, DirectoryCounts]
  dsimp only
  rw [slots]
  exact ⟨d.withdraw resident rfl, nodup⟩

theorem DirectoryCounts.failCopy (h : DirectoryCounts s) (hc : s.copy = some job) (reason : InstallReason) :
    DirectoryCounts (s.failCopy job.slot reason) := ⟨h.1.fail hc, h.2⟩

theorem mem_slotIds : ∀ i : Fin 8, i ∈ slotIds := by decide

theorem not_loading_of_anyLoading {slots : Vector Slot 8} (h : anyLoading slots = false) (i : Fin 8) :
    slots[i].state ≠ .loading := fun e => by
  have some : anyLoading slots = true := List.any_eq_true.2 ⟨i, mem_slotIds i, by simpa using e⟩
  rw [h] at some
  cases some

theorem lowestEmpty_state {slots : Vector Slot 8} (h : lowestEmpty slots = some i) : slots[i].state = .empty := by
  have found := List.find?_some h
  simpa using found

theorem DirectoryCounts.startCopy (h : DirectoryCounts s) (empty : lowestEmpty s.slots = some i)
    (idle : anyLoading s.slots = false) (bank offset : Nat) : DirectoryCounts (s.startCopy i bank offset) := by
  have state := lowestEmpty_state empty
  have unused : s.table.users i = 0 := (h.1.slot i).unused (.inl state)
  have noCopy (k : CopyJob) : s.copy ≠ some k := fun e =>
    not_loading_of_anyLoading idle k.slot ((h.1.loading k.slot).2 ⟨k, e, rfl⟩)
  have begun (k : CopyJob) (hk : k.slot = i) : DirectoryCounts { s with
      slots := s.slots.set i { emptySlotRecord with state := .loading, bank := bank, offset := offset }, copy := some k } := by
    refine ⟨h.1.set (unused ▸ .of_loading rfl rfl) (fun _ _ => rfl) ⟨fun _ => ⟨k, rfl, hk⟩, fun _ => rfl⟩ (fun j other => ?_)
      (fun e => by cases e), h.2⟩
    exact ⟨fun ⟨m, e, hm⟩ => absurd (hm.symm.trans (Option.some.inj e ▸ hk)) other,
      fun ⟨m, e, _⟩ => absurd e (noCopy m)⟩
  have failed (reason : InstallReason) : DirectoryCounts (State.failCopy { s with
      slots := s.slots.set i { emptySlotRecord with state := .loading, bank := bank, offset := offset } } i reason) := by
    have copied := begun { slot := i, header := [], prot := false } rfl
    exact ⟨copied.1.fail rfl, copied.2⟩
  unfold State.startCopy
  dsimp only
  split
  · exact failed _
  · split
    · exact begun _ rfl
    · exact failed _

theorem DirectoryCounts.takeHeader (h : DirectoryCounts s) {job' : CopyJob} (hc : s.copy = some job)
    (same : job'.slot = job.slot) : DirectoryCounts (s.takeHeader job') := by
  have loading : s.slots[job.slot].state = .loading := (h.1.loading job.slot).2 ⟨job, hc, rfl⟩
  have failed (reason : InstallReason) : DirectoryCounts (s.failCopy job'.slot reason) := by
    rw [same]
    exact h.failCopy hc reason
  unfold State.takeHeader
  dsimp only
  repeat' split
  · exact failed _
  · exact failed _
  · exact failed _
  · refine ⟨?_, h.2⟩
    unfold modifyAt
    rw [same]
    exact h.1.goOn hc same loading rfl

theorem withdraw_complete_comm {slots : Vector Slot 8} {i j : Fin 8} (other : j ≠ i) (f g : Slot → Slot) :
    modifyAt (modifyAt slots i f) j g = modifyAt (modifyAt slots j g) i f := by
  unfold modifyAt
  rw [set_other _ (Ne.symm other), set_other _ other]
  exact Vector.set_comm _ _ fun e => other (Fin.ext e.symm)

theorem DirectoryCounts.completeCopy (h : DirectoryCounts s) (hc : s.copy = some job) :
    DirectoryCounts (s.completeCopy job.slot) := by
  unfold State.completeCopy
  dsimp only
  split
  · next noOlder =>
    refine ⟨h.1.complete hc rfl rfl fun j other resident same => ?_, h.2⟩
    have none := List.find?_eq_none.1 noOlder j (mem_slotIds j)
    simp only [Bool.and_eq_true, decide_eq_true_eq, not_and] at none
    exact none ⟨other, resident⟩ same
  · next j older =>
    have found := List.find?_some older
    simp only [Bool.and_eq_true, decide_eq_true_eq] at found
    obtain ⟨⟨other, resident⟩, number⟩ := found
    refine ⟨?_, by rw [State.withdraw_eq]; exact h.2⟩
    have slots := State.withdraw_slots { s with
      slots := modifyAt s.slots job.slot fun x => { x with state := .resident, refCount := 0, imageLost := false }
      copy := none
      attention := { s.attention with installDone := some job.slot } } j
    rw [slots, State.withdraw_eq, withdraw_complete_comm other]
    have withdrawn : Directory (modifyAt s.slots j withdrawSlot) s.copy s.table.users := h.1.withdraw resident rfl
    refine withdrawn.complete hc rfl rfl fun k hk residentK same => ?_
    have same' : (modifyAt s.slots j withdrawSlot)[k].fontNumber = s.slots[job.slot].fontNumber := by
      rw [same, modifyAt_other _ other]
    by_cases e : k = j
    · subst e
      rw [modifyAt_same] at residentK
      rcases withdrawSlot_state s.slots[k] with x | x <;> rw [x] at residentK <;> cases residentK
    · rw [modifyAt_other _ (Ne.symm e)] at residentK same'
      exact e (h.1.unique k j residentK resident (same'.trans number.symm))

theorem addTableEntry_keeps {header : List Word} {x y : Slot} {w : Nat → Word} (h : addTableEntry header x w = .ok y) :
    y.state = x.state ∧ y.refCount = x.refCount := by
  unfold addTableEntry at h
  dsimp only at h
  repeat' split at h
  all_goals cases h
  all_goals exact ⟨rfl, rfl⟩

theorem DirectoryCounts.copyRead (h : DirectoryCounts s) (hc : s.copy = some job) : DirectoryCounts (s.copyRead job) := by
  have loading : s.slots[job.slot].state = .loading := (h.1.loading job.slot).2 ⟨job, hc, rfl⟩
  rcases s.copyRead_cases job with ⟨r, e⟩ | ⟨b, e⟩ | ⟨b, e⟩ | ⟨b, x, entry, e⟩
  · rw [e]
    exact h.failCopy hc r
  · rw [e]
    refine ⟨?_, h.2⟩
    have same := h.1.goOn (x := s.slots[job.slot]) hc (job' := s.headerRead job b) rfl loading rfl
    rwa [show s.slots.set job.slot s.slots[job.slot] = s.slots by simp] at same
  · rw [e]
    exact DirectoryCounts.takeHeader (s := { s with free := s.free + 9 }) h hc rfl
  · obtain ⟨state, count⟩ := addTableEntry_keeps entry
    have read : DirectoryCounts { s with slots := s.slots.set job.slot x } := by
      refine ⟨?_, h.2⟩
      rw [hc]
      exact h.1.goOn hc rfl (state.trans loading) count
    rcases e with e | e
    · rw [e]
      exact read.completeCopy hc
    · rw [e]
      exact read

theorem DirectoryCounts.loseSlot (h : DirectoryCounts s) (p i : Fin 8) : DirectoryCounts (s.loseSlot p i) := by
  unfold State.loseSlot
  split
  · exact h
  · split
    · exact h
    · next loading =>
      obtain ⟨job, hc, rfl⟩ := (h.1.loading i).1 loading
      exact h.failCopy hc _
    · next resident =>
      dsimp only
      have slots := State.withdraw_slots { s with slots := modifyAt s.slots i fun x => { x with imageLost := true } } i
      rw [State.withdraw_eq, DirectoryCounts]
      dsimp only
      rw [slots]
      refine ⟨?_, h.2⟩
      have twice : modifyAt (modifyAt s.slots i fun x => { x with imageLost := true }) i withdrawSlot =
          s.slots.set i (withdrawSlot { s.slots[i] with imageLost := true }) := by
        unfold modifyAt
        rw [set_same, Vector.set_set]
      rw [twice]
      exact h.1.withdraw resident rfl
    · next retiring =>
      refine ⟨h.1.set_idle ?_ (fun _ _ => rfl) (by rw [retiring]; decide) (by
        show s.slots[i].state ≠ _
        rw [retiring]; decide) fun e => ⟨e, rfl⟩, h.2⟩
      have sound := h.1.slot i
      refine ⟨fun e => ?_, sound.count, sound.unused, sound.retiring⟩
      exact absurd (retiring.symm.trans e) (by decide)

theorem DirectoryCounts.loseSlots (h : DirectoryCounts s) (p : Fin 8) (l : List (Fin 8)) :
    DirectoryCounts (s.loseSlots p l) := by
  induction l generalizing s with
  | nil => exact h
  | cons i l ih => exact ih (h.loseSlot p i)

end

end Sys2Proof.Machine

/-! The directory through turns, replies and resets (R16, R18, R23, R128). -/

namespace Sys2Proof.Machine

/-! ## The Setter's moves (R16, R111) -/

section
variable {s : State} {b c : Bench} {ok : Prop}

theorem Directory.countUp {slots : Vector Slot 8} {copy : Option CopyJob} {users users' : Fin 8 → Nat} {i : Fin 8}
    (h : Directory slots copy users) (service : slots[i].inService) (one : users' i = users i + 1)
    (others : ∀ j, j ≠ i → users' j = users j) : Directory (Machine.countUp slots i) copy users' := by
  have sound := h.slot i
  have count : slots[i].refCount + 1 = users' i := by rw [one, sound.count]
  have idle : slots[i].state ≠ .loading := by rcases service with e | e <;> rw [e] <;> decide
  refine h.set_idle ?_ others idle idle fun e => ⟨e, rfl⟩
  rcases service with e | e
  · exact .of_resident e count
  · exact .of_retiring e count (by omega)

theorem DirectoryCounts.joinSlot (h : DirectoryCounts (s.putBench b)) (g : Fin 32) (i : Fin 8) (service : b.slots[i].inService) :
    DirectoryCounts (s.putBench (b.joinSlot g i)) := by
  rcases b.joinSlot_cases g i with ⟨e, -⟩ | ⟨r, hr, fresh, e⟩
  · rw [e]
    exact h
  · obtain ⟨d, nodup⟩ := h
    obtain ⟨t, ht⟩ : ∃ t : GalleyTable, t = { b.table with
      records := b.table.records.set g (some { r with useSet := r.useSet ++ [i] }) } := ⟨_, rfl⟩
    have others (k : Fin 32) (hk : k ≠ g) : t.records[k] = b.table.records[k] := by
      rw [ht]
      exact set_other _ (Ne.symm hk) _
    have new : t.useSetOf g = r.useSet ++ [i] := by
      have record : t.records[g] = some { r with useSet := r.useSet ++ [i] } := by
        rw [ht]
        exact set_same _ _ _
      exact GalleyTable.useSetOf_some record
    have old : b.table.useSetOf g = r.useSet := GalleyTable.useSetOf_some hr
    have edit (k : Fin 8) := GalleyTable.users_edit others k
    simp only [GalleyTable.uses_eq, new, old] at edit
    rw [e, ← ht]
    refine ⟨d.countUp service ?_ fun k hk => ?_, fun k => ?_⟩
    · have := edit i
      simp only [fresh, List.mem_append, List.mem_singleton, or_true, decide_true, decide_false, Bool.toNat_true,
        Bool.toNat_false] at this
      exact this
    · have := edit k
      simp only [List.mem_append, List.mem_singleton, hk, or_false] at this
      exact Nat.add_right_cancel this
    · show (t.useSetOf k).Nodup
      by_cases same : k = g
      · subst same
        rw [new]
        refine List.nodup_append.2 ⟨old ▸ nodup k, List.nodup_singleton i, fun x hx y hy e => fresh ?_⟩
        rw [List.mem_singleton.1 hy] at e
        exact e ▸ hx
      · rw [GalleyTable.useSetOf_congr (others k same)]
        exact nodup k

theorem Bench.Move.directoryCounts (m : b.Move ok c) (h : DirectoryCounts (s.putBench b)) :
    DirectoryCounts (s.putBench c) := by
  cases m with
  | setting | giveUp | receiver | measure | joinLine | hold => exact h.congr rfl rfl (.refl _)
  | flags g f hf => exact h.congr rfl rfl (CopyKept.modify _ g fun r => by rw [hf r]; exact ⟨rfl, rfl⟩).uses
  | joinSlot g i service => exact h.joinSlot g i service
  | appendLine g line _ room => exact h.congr rfl rfl (.appendLine _ g room line)
  | endGalley g => exact h.congr rfl rfl (CopyKept.endGalley _ g).uses
  | allocate g free => exact h.congr rfl rfl (CopyKept.allocate _ free rfl rfl).uses
  | kill g o => exact h.congr rfl rfl (CopyKept.kill _ g o).uses
  | resume g => exact h.congr rfl rfl (CopyKept.resume _ g).uses
  | setClass g c => exact h.congr rfl rfl (CopyKept.setClass _ g c).uses

theorem Bench.Moves.directoryCounts (m : b.Moves ok c) (h : DirectoryCounts (s.putBench b)) :
    DirectoryCounts (s.putBench c) :=
  m.induct (P := fun b => DirectoryCounts (s.putBench b)) (fun _ _ one => one.directoryCounts) h

end

/-! ## The film and the reactions -/

theorem CopyKept.raiseFlag (t : GalleyTable) (g : Fin 32) (f : GalleyFlag) : CopyKept t (t.raiseFlag g f) :=
  .modify t g fun r => by rw [r.raiseFlag_eq f]; exact ⟨rfl, rfl⟩

section
variable (f : Film)

theorem Film.flagImageLost_copyKept : CopyKept f.table f.flagImageLost.table := by
  unfold Film.flagImageLost
  split
  · exact .refl _
  · exact .raiseFlag _ _ _

theorem Film.deliverBlank_copyKept : CopyKept f.table f.deliverBlank.table :=
  Film.flagImageLost_copyKept (Film.withImg (f.withImg fun m =>
    { m with mirror := match m.loadEntry with
      | some n => markBlank m.mirror n
      | none => m.mirror }) fun m => m.deliver [])

theorem Film.beginLoad_copyKept (n : Fin 64) (slot : Fin 8) (glyph : Nat) : CopyKept f.table (f.beginLoad n slot glyph).table := by
  unfold Film.beginLoad
  dsimp only
  split
  · exact Film.deliverBlank_copyKept (f.send (.loadOutline n none))
  · split <;> exact .refl _

theorem Film.takeUp_copyKept (slot : Fin 8) (p : PlacedGlyph) : CopyKept f.table (f.takeUp slot p).table := by
  unfold Film.takeUp
  split
  · dsimp only
    split
    · exact Film.flagImageLost_copyKept (f.withImg _)
    · exact .refl _
  · exact Film.beginLoad_copyKept (f.withImg _) _ _ _

theorem Film.freeLine_copyKept : CopyKept f.table f.freeLine.table := by
  unfold Film.freeLine
  split
  · exact .refl _
  · rw [Film.betweenLines_table]
    exact .freeHeadLine _ _

theorem Film.nextEntry_copyKept : CopyKept f.table f.nextEntry.table := by
  unfold Film.nextEntry
  split
  · exact .refl _
  · split
    · rw [Film.betweenLines_table]
      exact .refl _
    · split
      · exact Film.takeUp_copyKept (f.withImg _) _ _
      · exact f.freeLine_copyKept

theorem Film.exposeLoaded_table (n : Fin 64) : (f.exposeLoaded n).table = f.table := by
  unfold Film.exposeLoaded
  repeat' split
  all_goals rfl

theorem Film.acked_copyKept (r : Record) : CopyKept f.table (f.acked r).table := by
  cases r with
  | cacheClear | killMark => exact .refl _
  | galleyOpen => exact (f.betweenLines_table ▸ .refl _ : CopyKept f.table f.betweenLines.table)
  | advance | exposeGlyph => exact f.nextEntry_copyKept
  | loadOutline n => exact (f.exposeLoaded_table n ▸ .refl _ : CopyKept f.table (f.exposeLoaded n).table)
  | galleyClose =>
    unfold Film.acked Film.closeAcked
    dsimp only
    split
    · exact .refl _
    · exact .closed _ _

theorem Film.fault_copyKept : CopyKept f.table f.fault.table := by
  unfold Film.fault
  dsimp only
  split
  · exact .refl _
  · exact .faulted _ _

end

section
variable {s : State}

theorem State.selectionRound_copyKept (s : State) : CopyKept s.table s.selectionRound.table := by
  rcases s.selectionRound_cases with ⟨e, -⟩ | ⟨g, r, -, -, -, -, e⟩
  · rw [e]
    exact .refl _
  · rw [e]
    exact .select _ g

theorem MarksTaken.copyKept {t t' : GalleyTable} (h : MarksTaken t t') : CopyKept t t' := by
  refine ⟨fun g => ?_, fun g l m => ?_⟩
  · cases hr : t.records[g] with
    | none => exact GalleyTable.useSetOf_congr ((h.free g hr).trans hr.symm)
    | some r =>
      obtain ⟨mark, marked⟩ := h.record g r hr
      rw [GalleyTable.useSetOf_some hr, GalleyTable.useSetOf_some marked]
  · cases hr : t.records[g] with
    | none => rwa [GalleyTable.linesOf_congr ((h.free g hr).trans hr.symm)] at m
    | some r =>
      obtain ⟨mark, marked⟩ := h.record g r hr
      rw [GalleyTable.linesOf_some marked] at m
      rwa [GalleyTable.linesOf_some hr]

theorem State.settle_copyKept (s : State) : CopyKept s.table s.settle.table := by
  have selected := s.wakeWalk.selectionRound_copyKept
  rw [State.wakeWalk_table] at selected
  exact selected.trans s.settle_marksTaken.copyKept

theorem DirectoryCounts.settle (h : DirectoryCounts s) : DirectoryCounts s.settle :=
  h.congr s.settle_slots s.settle_copy s.settle_copyKept.uses

/-! ## Records freed and slots reset (R18, R23, R128) -/

/-- A slot's count falls by a galley that used it (R18). -/
theorem State.countDown_directory {users : Fin 8 → Nat} {i : Fin 8} (h : Directory s.slots s.copy users) (used : 0 < users i) :
    Directory (s.countDown i).slots s.copy fun j => if j = i then users i - 1 else users j := by
  have sound := h.slot i
  have service : s.slots[i].state = .resident ∨ s.slots[i].state = .retiring := by
    cases e : s.slots[i].state with
    | empty => have := sound.unused (.inl e); omega
    | loading => have := sound.unused (.inr e); omega
    | resident => exact .inl rfl
    | retiring => exact .inr rfl
  have idle : s.slots[i].state ≠ .loading := by rcases service with e | e <;> rw [e] <;> decide
  have others (j : Fin 8) (hj : j ≠ i) : (if j = i then users i - 1 else users j) = users j := if_neg hj
  have count : s.slots[i].refCount - 1 = users i - 1 := by rw [sound.count]
  unfold State.countDown
  dsimp only
  split
  · next last =>
    refine h.set_idle ?_ others idle (by decide) fun e => by cases e
    have zero : users i - 1 = 0 := count ▸ last.1
    rw [if_pos rfl, zero]
    exact .emptyRecord
  · next stays =>
    refine h.set_idle ?_ others idle idle fun e => ⟨e, rfl⟩
    rw [if_pos rfl]
    rcases service with e | e
    · exact .of_resident e count
    · refine .of_retiring e count ?_
      have some : s.slots[i].refCount - 1 ≠ 0 := fun zero => stays ⟨zero, e⟩
      omega

theorem State.countDownAll_directory {l : List (Fin 8)} {users : Fin 8 → Nat} (h : Directory s.slots s.copy users)
    (nodup : l.Nodup) (used : ∀ i ∈ l, 0 < users i) :
    Directory (s.countDownAll l).slots s.copy fun j => if j ∈ l then users j - 1 else users j := by
  induction l generalizing s users with
  | nil =>
    have same : (fun j => if j ∈ ([] : List (Fin 8)) then users j - 1 else users j) = users := by
      funext j
      simp
    rw [same]
    exact h
  | cons i l ih =>
    obtain ⟨fresh, nodup⟩ := List.nodup_cons.1 nodup
    have one := State.countDown_directory h (used i List.mem_cons_self)
    have copy : (s.countDown i).copy = s.copy := by rw [State.countDown_eq]
    have rest := ih (s := s.countDown i) (copy ▸ one) nodup fun j hj => by
      have other : j ≠ i := by rintro rfl; exact fresh hj
      rw [if_neg other]
      exact used j (List.mem_cons_of_mem i hj)
    rw [copy] at rest
    have users_eq : (fun j => if j ∈ l then (if j = i then users i - 1 else users j) - 1
        else if j = i then users i - 1 else users j) = fun j => if j ∈ i :: l then users j - 1 else users j := by
      funext j
      by_cases same : j = i
      · subst same
        simp [fresh]
      · simp [same]
    rw [users_eq] at rest
    exact rest

theorem DirectoryCounts.freeRecord (h : DirectoryCounts s) (g : Fin 32) : DirectoryCounts (s.freeRecord g) := by
  cases hr : s.table.records[g] with
  | none =>
    unfold State.freeRecord
    rw [hr]
    exact h
  | some r =>
    obtain ⟨d, nodup⟩ := h
    obtain ⟨t, ht⟩ : ∃ t : GalleyTable, t = { s.table with
      records := s.table.records.set g none, order := s.table.order.filter (· ≠ g) } := ⟨_, rfl⟩
    have e : s.freeRecord g = { s.countDownAll r.useSet with table := t } := by
      unfold State.freeRecord
      simp only [hr, ht]
    have others (k : Fin 32) (hk : k ≠ g) : t.records[k] = s.table.records[k] := by
      rw [ht]
      exact set_other _ (Ne.symm hk) _
    have old : s.table.useSetOf g = r.useSet := GalleyTable.useSetOf_some hr
    have new : t.useSetOf g = [] := by
      have record : t.records[g] = none := by
        rw [ht]
        exact set_same _ _ _
      exact GalleyTable.useSetOf_none record
    have edit (k : Fin 8) := GalleyTable.users_edit others k
    simp only [GalleyTable.uses_eq, new, old, List.not_mem_nil, decide_false, Bool.toNat_false, Nat.add_zero] at edit
    have used (i : Fin 8) (hi : i ∈ r.useSet) : t.users i + 1 = s.table.users i := by
      have := edit i
      simpa [hi] using this
    have users : (fun j => if j ∈ r.useSet then s.table.users j - 1 else s.table.users j) = t.users := by
      funext j
      by_cases hj : j ∈ r.useSet
      · rw [if_pos hj, ← used j hj]
        rfl
      · rw [if_neg hj]
        have := edit j
        simpa [hj] using this.symm
    have counted := State.countDownAll_directory d (old ▸ nodup g) fun i hi => by
      have := used i hi
      omega
    rw [users] at counted
    have copy : (s.countDownAll r.useSet).copy = s.copy := by rw [State.countDownAll_eq]
    rw [e]
    refine ⟨copy ▸ counted, fun k => ?_⟩
    show (t.useSetOf k).Nodup
    by_cases same : k = g
    · subst same
      rw [new]
      exact List.nodup_nil
    · rw [GalleyTable.useSetOf_congr (others k same)]
      exact nodup k

theorem emptyTable_useSetOf (g : Fin 32) : emptyTable.useSetOf g = [] :=
  GalleyTable.useSetOf_none (Vector.getElem_replicate _)

theorem emptyTable_users (i : Fin 8) : emptyTable.users i = 0 := by
  unfold GalleyTable.users
  rw [List.countP_eq_zero]
  intro g _
  rw [GalleyTable.uses_eq, emptyTable_useSetOf]
  simp

/-- After a reset no galley uses a slot, and no copy is in progress. -/
theorem DirectoryCounts.of_reset (table : s.table = emptyTable) (copy : s.copy = none)
    (sound : ∀ i : Fin 8, s.slots[i].state ≠ .loading ∧ SlotSound s.slots[i] 0)
    (unique : ∀ i j : Fin 8, s.slots[i].state = .resident → s.slots[j].state = .resident →
      s.slots[i].fontNumber = s.slots[j].fontNumber → i = j) : DirectoryCounts s := by
  refine ⟨⟨fun i => ?_, unique, fun i => ?_⟩, fun g => ?_⟩
  · rw [copy]
    exact ⟨fun e => absurd e (sound i).1, fun ⟨_, e, _⟩ => (by cases e)⟩
  · rw [table, emptyTable_users]
    exact (sound i).2
  · rw [table, emptyTable_useSetOf]
    exact List.nodup_nil

theorem resetSlot_cases (x : Slot) :
    resetSlot x = emptySlotRecord ∨ (x.state = .resident ∧ resetSlot x = { x with refCount := 0 }) := by
  unfold resetSlot
  cases h : x.state with
  | resident => exact .inr ⟨rfl, rfl⟩
  | empty | loading | retiring => exact .inl rfl

theorem DirectoryCounts.workReset (h : DirectoryCounts s) : DirectoryCounts s.workReset := by
  have slot (i : Fin 8) : s.workReset.slots[i] = resetSlot s.slots[i] := by
    show (s.slots.map resetSlot)[i] = _
    rw [Fin.getElem_fin, Vector.getElem_map]
    rfl
  refine .of_reset rfl rfl (fun i => ?_) fun i j hi hj => ?_
  · rw [slot i]
    rcases resetSlot_cases s.slots[i] with e | ⟨resident, e⟩
    · rw [e]
      exact ⟨by decide, .emptyRecord⟩
    · rw [e]
      refine ⟨?_, .of_resident resident rfl⟩
      show s.slots[i].state ≠ _
      rw [resident]
      decide
  · rw [slot i] at hi ⊢
    rw [slot j] at hj ⊢
    rcases resetSlot_cases s.slots[i] with ei | ⟨ri, ei⟩
    · rw [ei] at hi
      cases hi
    · rcases resetSlot_cases s.slots[j] with ej | ⟨rj, ej⟩
      · rw [ej] at hj
        cases hj
      · rw [ei, ej]
        exact h.1.unique i j ri rj

theorem DirectoryCounts.powerOn (s : State) : DirectoryCounts s.powerOn := by
  have slot (i : Fin 8) : State.reset.slots[i] = emptySlotRecord := Vector.getElem_replicate _
  unfold State.powerOn
  refine DirectoryCounts.settle (.of_reset rfl rfl (fun i => ?_) fun i j hi => ?_)
  · show State.reset.slots[i].state ≠ _ ∧ SlotSound State.reset.slots[i] 0
    rw [slot i]
    exact ⟨by decide, .emptyRecord⟩
  · have e : State.reset.slots[i].state = .resident := hi
    rw [slot i] at e
    cases e

end

/-! ## Every step -/

theorem directoryCounts_kept : KeptByWork DirectoryCounts where
  frame h same := h.congr same.slots same.copy (same.table ▸ .refl _)
  settle _ h := h.settle
  powerOn s _ := .powerOn s
  reset _ h := h.workReset
  startCopy _ _ b o empty idle h := h.startCopy empty idle b o
  withdraw s i n resolved h := by
    refine h.withdraw ?_
    unfold resolveResident at resolved
    split at resolved
    · have found := List.find?_some resolved
      simp only [Bool.and_eq_true, decide_eq_true_eq] at found
      exact found.1
    · cases resolved
  copyRead _ _ hc h := h.copyRead hc
  loseSlots _ p h := h.loseSlots p _
  cutFetch s p h := by
    unfold State.cutFetch
    repeat' split
    · exact h
    · exact h.congr rfl rfl s.film.deliverBlank_copyKept.uses
    · exact h
  moves s i c m h := by
    have start : DirectoryCounts (s.putBench (s.bench i)) := by rwa [s.putBench_bench]
    exact (m False False.elim).directoryCounts start
  receiver _ _ _ _ h := h.congr rfl rfl (.refl _)
  readyOn _ _ h := h.congr rfl rfl (.refl _)
  readyOff _ _ h := h.congr rfl rfl (.refl _)
  nextByte _ _ _ _ h := h.congr rfl rfl (.refl _)
  completeReply s i _ h := by
    have finished : DirectoryCounts (s.onLink i fun l => { l with tx := l.tx.finish }) := h.congr rfl rfl (.refl _)
    unfold State.completeReply
    dsimp only
    split
    · exact finished
    · exact finished.congr rfl rfl (.refl _)
    · exact finished
    · exact finished.freeRecord _
  acked s o _ _ h := h.congr rfl rfl (s.film.acked_copyKept o.record).uses
  fault s h := h.congr rfl rfl s.film.fault_copyKept.uses
  unit _ _ _ h := h.congr rfl rfl (.refl _)

/-- Settles O58: a slot's count rises when a galley's font-use set takes it and falls when the record is freed, and the other
operations change one slot in the order of R5 to R13. -/
theorem stepKeepsDirectoryAndCounts : Obligations.StepKeepsDirectoryAndCounts := by
  unfold Obligations.StepKeepsDirectoryAndCounts
  intro s t directory counts next
  have before : DirectoryCounts s := (directoryCounts_iff s).2 ⟨directory, counts⟩
  exact (directoryCounts_iff t).1 (directoryCounts_kept.events.step before next)

end Sys2Proof.Machine

/-! The cache mirror and the font-use sets of every step (R13, R16, R66, R166, R167). -/

namespace Sys2Proof.Machine

/-! ## The mirror under the walk (R166, R168) -/

/-- A property of mirrors that the walk keeps: an entry touched at a hit, an entry made at a miss for a slot that is ok, and the
blank-by-loss mark. -/
structure MirrorRule (Q : List MirrorEntry → Prop) (ok : Fin 8 → Prop) : Prop where
  touch : ∀ m e, e ∈ m → Q m → Q (mirrorTouch m e)
  insert : ∀ m slot glyph, mirrorFind m slot glyph = none → ok slot → Q m →
    Q ((chooseEntry m).2 ++ [{ entry := (chooseEntry m).1, slot := slot, glyph := glyph, blank := false }])
  blank : ∀ m n, Q m → Q (markBlank m n)

theorem mirrorFind_mem {m : List MirrorEntry} {slot : Fin 8} {glyph : Nat} {e : MirrorEntry}
    (h : mirrorFind m slot glyph = some e) : e ∈ m := List.mem_of_find?_eq_some h

section
variable {Q : List MirrorEntry → Prop} {ok : Fin 8 → Prop} {f : Film}

theorem Film.flagImageLost_img (f : Film) : f.flagImageLost.img = f.img := by
  unfold Film.flagImageLost
  split <;> rfl

theorem MirrorRule.deliverBlank (k : MirrorRule Q ok) (h : Q f.img.mirror) : Q f.deliverBlank.img.mirror := by
  unfold Film.deliverBlank
  rw [Film.flagImageLost_img]
  show Q (match f.img.loadEntry with
    | some n => markBlank f.img.mirror n
    | none => f.img.mirror)
  split
  · exact k.blank _ _ h
  · exact h

theorem MirrorRule.beginLoad (k : MirrorRule Q ok) (h : Q f.img.mirror) (n : Fin 64) (slot : Fin 8) (glyph : Nat) :
    Q (f.beginLoad n slot glyph).img.mirror := by
  unfold Film.beginLoad
  dsimp only
  split
  · exact k.deliverBlank (f := f.send (.loadOutline n none)) h
  · split
    · exact h
    · exact h

theorem MirrorRule.takeUp (k : MirrorRule Q ok) (h : Q f.img.mirror) {slot : Fin 8} (used : ok slot) (p : PlacedGlyph) :
    Q (f.takeUp slot p).img.mirror := by
  unfold Film.takeUp
  split
  · next e found =>
    have touched : Q (mirrorTouch f.img.mirror e) := k.touch _ e (mirrorFind_mem found) h
    dsimp only [Film.send, Film.withImg, Imaging.send]
    split
    · rw [Film.flagImageLost_img]
      exact touched
    · exact touched
  · next missed =>
    exact k.beginLoad (f := f.withImg fun m => { m with mirror := (chooseEntry f.img.mirror).2 ++
      [{ entry := (chooseEntry f.img.mirror).1, slot := slot, glyph := p.glyph, blank := false }] })
      (k.insert _ slot p.glyph missed used h) _ _ _

theorem nextPlaced_slot {l : List PlacedGlyph} {n k : Nat} {slot : Fin 8} {p : PlacedGlyph}
    (h : nextPlaced l n = some (k, slot, p)) : slot ∈ placedSlots l := by
  induction l generalizing n with
  | nil => cases h
  | cons q l ih =>
    unfold nextPlaced at h
    unfold placedSlots
    rw [List.flatMap_cons]
    split at h
    · next s hs =>
      injection h with h
      injection h with _ h
      injection h with h _
      exact List.mem_append_left _ (by rw [hs, h]; exact List.mem_singleton_self _)
    · exact List.mem_append_right _ (ih h)

theorem Film.betweenLines_mirror (f : Film) : f.betweenLines.img.mirror = f.img.mirror := by rw [Film.betweenLines_eq]

/-- The slots of the lines of the walk's galley are ok. -/
def Film.LinesOk (f : Film) (ok : Fin 8 → Prop) : Prop :=
  ∀ r, f.galley = some r → ∀ l ∈ r.lines, ∀ k ∈ placedSlots l.glyphs, ok k

theorem MirrorRule.nextEntry (k : MirrorRule Q ok) (h : Q f.img.mirror) (lines : f.LinesOk ok) :
    Q f.nextEntry.img.mirror := by
  unfold Film.nextEntry
  split
  · exact h
  · next r hr =>
    split
    · rw [Film.betweenLines_mirror]
      exact h
    · next line rest hl =>
      split
      · next at_ slot p placed =>
        refine k.takeUp (f := f.withImg fun m => { m with pos := at_ + 1 }) h (lines r hr line (by rw [hl]; exact List.mem_cons_self) slot ?_) p
        obtain ⟨q, hq, inSlot⟩ := List.mem_flatMap.1 (nextPlaced_slot placed)
        exact List.mem_flatMap.2 ⟨q, List.mem_of_mem_drop hq, inSlot⟩
      · unfold Film.freeLine
        split
        · exact h
        · rw [Film.betweenLines_mirror]
          exact h

theorem MirrorRule.acked (k : MirrorRule Q ok) (h : Q f.img.mirror) (lines : f.LinesOk ok) (r : Record) :
    Q (f.acked r).img.mirror := by
  cases r with
  | cacheClear | killMark | galleyClose => exact h
  | galleyOpen =>
    show Q f.betweenLines.img.mirror
    rw [Film.betweenLines_mirror]
    exact h
  | advance | exposeGlyph => exact k.nextEntry h lines
  | loadOutline n =>
    show Q (f.exposeLoaded n).img.mirror
    unfold Film.exposeLoaded
    repeat' split
    all_goals exact h

end

/-! ## No two entries of one key or of one unit entry (R166) -/

theorem MirrorSound.sublist {m m' : List MirrorEntry} (h : MirrorSound m) (sub : m'.Sublist m) : MirrorSound m' :=
  ⟨h.entries.sublist sub, h.keys.sublist sub⟩

theorem MirrorSound.concat {m : List MirrorEntry} {e : MirrorEntry} (h : MirrorSound m) (entry : ∀ a ∈ m, a.entry ≠ e.entry)
    (key : ∀ a ∈ m, ¬ (a.slot = e.slot ∧ a.glyph = e.glyph)) : MirrorSound (m ++ [e]) := by
  refine ⟨List.pairwise_append.2 ⟨h.entries, List.pairwise_singleton _ e, fun a ha b hb => ?_⟩,
    List.pairwise_append.2 ⟨h.keys, List.pairwise_singleton _ e, fun a ha b hb => ?_⟩⟩
  · rw [List.mem_singleton.1 hb]
    exact entry a ha
  · rw [List.mem_singleton.1 hb]
    exact key a ha

theorem MirrorSound.touch {m : List MirrorEntry} (h : MirrorSound m) {e : MirrorEntry} (he : e ∈ m) :
    MirrorSound (mirrorTouch m e) := by
  have symm : Std.Symm fun a b : MirrorEntry => ¬ (a.slot = b.slot ∧ a.glyph = b.glyph) :=
    ⟨fun a b n ⟨s, g⟩ => n ⟨s.symm, g.symm⟩⟩
  refine (h.sublist List.filter_sublist).concat (fun a ha => ?_) fun a ha => ?_
  · simpa using (List.mem_filter.1 ha).2
  · have other : a ≠ e := by
      rintro rfl
      simpa using (List.mem_filter.1 ha).2
    exact h.keys.forall (List.mem_filter.1 ha).1 he other

theorem chooseEntry_sublist (m : List MirrorEntry) : (chooseEntry m).2.Sublist m := by
  unfold chooseEntry
  split
  · exact .refl _
  · exact List.sublist_cons_self _ _
  · exact .refl _

theorem chooseEntry_entry {m : List MirrorEntry} (h : MirrorSound m) : ∀ a ∈ (chooseEntry m).2, a.entry ≠ (chooseEntry m).1 := by
  unfold chooseEntry
  split
  · next n free =>
    have unused := List.find?_some free
    intro a ha
    simpa using List.all_eq_true.1 unused a ha
  · next e rest _ =>
    intro a ha
    exact ((List.pairwise_cons.1 h.entries).1 a ha).symm
  · exact fun a ha => absurd ha List.not_mem_nil

theorem mirrorSound_rule : MirrorRule MirrorSound fun _ => True where
  touch _ _ he h := h.touch he
  insert m slot glyph missed _ h := by
    refine (h.sublist (chooseEntry_sublist m)).concat (chooseEntry_entry h) fun a ha => ?_
    have other := List.find?_eq_none.1 missed a ((chooseEntry_sublist m).subset ha)
    simpa using other
  blank m n h := by
    have entry (e : MirrorEntry) : (if e.entry = n then { e with blank := true } else e).entry = e.entry := by split <;> rfl
    have slot (e : MirrorEntry) : (if e.entry = n then { e with blank := true } else e).slot = e.slot := by split <;> rfl
    have glyph (e : MirrorEntry) : (if e.entry = n then { e with blank := true } else e).glyph = e.glyph := by split <;> rfl
    refine ⟨List.pairwise_map.2 ?_, List.pairwise_map.2 ?_⟩
    · simp only [entry]
      exact h.entries
    · simp only [slot, glyph]
      exact h.keys

/-! ## The mirror under the directory (R13, R167) -/

/-- Entries dropped and slots changed, no entry left for a slot that has become EMPTY. -/
structure MirrorPruned (s t : State) : Prop where
  sub : t.imaging.mirror.Sublist s.imaging.mirror
  fits : ∀ e ∈ t.imaging.mirror, s.slots[e.slot].state ≠ .empty → t.slots[e.slot].state ≠ .empty

section
variable {s t u : State}

theorem MirrorPruned.refl (s : State) : MirrorPruned s s := ⟨.refl _, fun _ _ h => h⟩

theorem MirrorPruned.trans (a : MirrorPruned s t) (b : MirrorPruned t u) : MirrorPruned s u :=
  ⟨b.sub.trans a.sub, fun e he h => b.fits e he (a.fits e (b.sub.subset he) h)⟩

theorem MirrorPruned.set {i : Fin 8} {x : Slot} (mirror : t.imaging.mirror = s.imaging.mirror) (slots : t.slots = s.slots.set i x)
    (live : x.state ≠ .empty) : MirrorPruned s t := by
  refine ⟨by rw [mirror], fun e _ h => ?_⟩
  rw [slots]
  by_cases same : i = e.slot
  · subst same
    rw [set_same]
    exact live
  · rw [set_other _ same]
    exact h

theorem MirrorPruned.clear {i : Fin 8} (mirror : t.imaging.mirror = dropSlotEntries s.imaging.mirror i)
    (slots : t.slots = clearSlot s.slots i) : MirrorPruned s t := by
  refine ⟨by rw [mirror]; exact List.filter_sublist, fun e he h => ?_⟩
  rw [mirror] at he
  have other : i ≠ e.slot := fun same => of_decide_eq_true (List.mem_filter.1 he).2 same.symm
  rw [slots]
  unfold clearSlot
  rw [set_other _ other]
  exact h

theorem MirrorPruned.withdraw (s : State) (i : Fin 8) : MirrorPruned s (s.withdraw i) := by
  unfold State.withdraw
  split
  · exact .clear rfl rfl
  · exact .set (i := i) rfl rfl fun e => by cases e

theorem MirrorPruned.failCopy (s : State) (i : Fin 8) (r : InstallReason) : MirrorPruned s (s.failCopy i r) := .clear rfl rfl

theorem MirrorPruned.startCopy (s : State) (i : Fin 8) (bank offset : Nat) : MirrorPruned s (s.startCopy i bank offset) := by
  have begun : MirrorPruned s { s with
      slots := s.slots.set i { emptySlotRecord with state := .loading, bank := bank, offset := offset } } :=
    .set rfl rfl fun e => by cases e
  unfold State.startCopy
  dsimp only
  split
  · exact begun.trans (.failCopy _ _ _)
  · split
    · exact .set rfl rfl fun e => by cases e
    · exact begun.trans (.failCopy _ _ _)

theorem MirrorPruned.completeCopy (s : State) (i : Fin 8) : MirrorPruned s (s.completeCopy i) := by
  have resident : MirrorPruned s { s with
      slots := modifyAt s.slots i fun x => { x with state := .resident, refCount := 0, imageLost := false }, copy := none
      attention := { s.attention with installDone := some i } } := .set (i := i) rfl rfl fun e => by cases e
  unfold State.completeCopy
  dsimp only
  split
  · exact resident
  · exact resident.trans (.withdraw _ _)

/-- A slot changed, its state kept. -/
theorem MirrorPruned.keep {i : Fin 8} {x : Slot} (mirror : t.imaging.mirror = s.imaging.mirror) (slots : t.slots = s.slots.set i x)
    (state : x.state = s.slots[i].state) : MirrorPruned s t := by
  refine ⟨by rw [mirror], fun e _ h => ?_⟩
  rw [slots]
  by_cases same : i = e.slot
  · subst same
    rw [set_same, state]
    exact h
  · rw [set_other _ same]
    exact h

theorem MirrorPruned.takeHeader (s : State) (job : CopyJob) : MirrorPruned s (s.takeHeader job) := by
  unfold State.takeHeader
  dsimp only
  repeat' split
  · exact .failCopy _ _ _
  · exact .failCopy _ _ _
  · exact .failCopy _ _ _
  · exact .keep (i := job.slot) rfl rfl rfl

theorem MirrorPruned.copyRead (s : State) (job : CopyJob) : MirrorPruned s (s.copyRead job) := by
  rcases s.copyRead_cases job with ⟨r, e⟩ | ⟨b, e⟩ | ⟨b, e⟩ | ⟨b, x, entry, e⟩
  · rw [e]
    exact .failCopy _ _ _
  · rw [e]
    exact ⟨.refl _, fun _ _ h => h⟩
  · rw [e]
    have counted : MirrorPruned s { s with free := s.free + 9 } := ⟨.refl _, fun _ _ h => h⟩
    exact counted.trans (.takeHeader _ _)
  · have read : MirrorPruned s { s with slots := s.slots.set job.slot x } := .keep rfl rfl (addTableEntry_keeps entry).1
    rcases e with e | e
    · rw [e]
      exact read.trans (.completeCopy _ _)
    · rw [e]
      exact read

theorem MirrorPruned.loseSlot (s : State) (p i : Fin 8) : MirrorPruned s (s.loseSlot p i) := by
  have lost : MirrorPruned s { s with slots := modifyAt s.slots i fun x => { x with imageLost := true } } :=
    .keep (i := i) rfl rfl rfl
  unfold State.loseSlot
  dsimp only
  repeat' split
  · exact .refl s
  · exact .refl s
  · exact .failCopy _ _ _
  · exact lost.trans (.withdraw _ _)
  · exact lost

theorem MirrorPruned.loseSlots (s : State) (p : Fin 8) (l : List (Fin 8)) : MirrorPruned s (s.loseSlots p l) := by
  induction l generalizing s with
  | nil => exact .refl s
  | cons i l ih => exact (MirrorPruned.loseSlot s p i).trans (ih _)

theorem MirrorPruned.countDown (s : State) (i : Fin 8) : MirrorPruned s (s.countDown i) := by
  unfold State.countDown
  dsimp only
  split
  · exact .clear rfl rfl
  · exact .keep (i := i) rfl rfl rfl

theorem MirrorPruned.countDownAll (s : State) (l : List (Fin 8)) : MirrorPruned s (s.countDownAll l) := by
  induction l generalizing s with
  | nil => exact .refl s
  | cons i l ih => exact (MirrorPruned.countDown s i).trans (ih _)

theorem MirrorPruned.of_same (slots : t.slots = s.slots) (mirror : t.imaging.mirror = s.imaging.mirror) : MirrorPruned s t :=
  ⟨by rw [mirror], fun _ _ h => by rw [slots]; exact h⟩

theorem MirrorPruned.freeRecord (s : State) (g : Fin 32) : MirrorPruned s (s.freeRecord g) := by
  unfold State.freeRecord
  split
  · exact .refl s
  · next r _ => exact (MirrorPruned.countDownAll s r.useSet).trans (.of_same rfl rfl)

theorem MirrorPruned.completeReply (s : State) (i : Fin 4) : MirrorPruned s (s.completeReply i) := by
  have finished : MirrorPruned s (s.onLink i fun l => { l with tx := l.tx.finish }) := .of_same rfl rfl
  unfold State.completeReply
  dsimp only
  split
  · exact finished
  · exact .of_same rfl rfl
  · exact finished
  · exact finished.trans (.freeRecord _ _)

theorem State.settle_mirror (s : State) : s.settle.imaging.mirror = s.imaging.mirror := by
  rw [State.settle_imaging_eq]
  have woken : s.wakeWalk.imaging.mirror = s.imaging.mirror := by rw [State.wakeWalk_imaging]
  rcases s.wakeWalk.selectionRound_cases with ⟨e, -⟩ | ⟨g, r, -, -, -, -, e⟩
  · rw [e]
    exact woken
  · rw [e]
    exact woken

theorem MirrorPruned.settle (s : State) : MirrorPruned s s.settle := .of_same s.settle_slots s.settle_mirror

end

theorem Imaging.afterLibraryReset_mirror (m : Imaging) : m.afterLibraryReset.mirror = [] := by
  unfold Imaging.afterLibraryReset
  dsimp only
  repeat' split
  all_goals rfl

theorem Imaging.afterPowerOn_mirror (m : Imaging) : m.afterPowerOn.mirror = [] := by
  unfold Imaging.afterPowerOn
  split <;> rfl

theorem State.powerOn_mirror (s : State) : s.powerOn.imaging.mirror = [] := by
  unfold State.powerOn
  rw [State.settle_mirror]
  exact Imaging.afterPowerOn_mirror _

/-- The mirror of a state without two entries of one key or of one unit entry. -/
def MirrorKept (s : State) : Prop := MirrorSound s.imaging.mirror

theorem MirrorSound.nil : MirrorSound [] := ⟨List.Pairwise.nil, List.Pairwise.nil⟩

theorem mirrorKept_kept : KeptByWork MirrorKept where
  frame {s t} h same := by
    unfold MirrorKept
    rw [same.imaging]
    exact h
  settle s h := h.sublist (MirrorPruned.settle s).sub
  powerOn s _ := by
    unfold MirrorKept
    rw [s.powerOn_mirror]
    exact .nil
  reset s _ := by
    show MirrorSound s.imaging.afterLibraryReset.mirror
    rw [Imaging.afterLibraryReset_mirror]
    exact .nil
  startCopy s i b o _ _ h := h.sublist (MirrorPruned.startCopy s i b o).sub
  withdraw s i _ _ h := h.sublist (MirrorPruned.withdraw s i).sub
  copyRead s job _ h := h.sublist (MirrorPruned.copyRead s job).sub
  loseSlots s p h := h.sublist (MirrorPruned.loseSlots s p slotIds).sub
  cutFetch s p h := by
    unfold State.cutFetch
    repeat' split
    · exact h
    · exact mirrorSound_rule.deliverBlank (f := s.film) h
    · exact h
  moves _ _ _ _ h := h
  receiver _ _ _ _ h := h
  readyOn _ _ h := h
  readyOff _ _ h := h
  nextByte _ _ _ _ h := h
  completeReply s i _ h := h.sublist (MirrorPruned.completeReply s i).sub
  acked s o _ _ h := mirrorSound_rule.acked (f := s.film) h (fun _ _ _ _ _ _ => trivial) o.record
  fault _ h := h
  unit s m quiet h := by
    show MirrorSound m.mirror
    rcases quiet.mirror with same | empty
    · rw [same]
      exact h
    · rw [empty]
      exact .nil

/-! ## Every slot of copy in hand stands in a font-use set (R16, R66) -/

/-- What a galley's lines and its link hold of a slot is in the galley's font-use set, and no mirror entry is of an EMPTY slot. -/
structure CopyInUse (s : State) : Prop where
  lines : ∀ g, ∀ l ∈ s.table.linesOf g, ∀ k ∈ placedSlots l.glyphs, k ∈ s.table.useSetOf g
  held : ∀ (i : Fin 4) (g : Fin 32), s.links[i].setting.galley = some g →
    ∀ k ∈ s.links[i].setting.usedSlots, k ∈ s.table.useSetOf g
  mirror : ∀ e ∈ s.imaging.mirror, s.slots[e.slot].state ≠ .empty

theorem copyInUse_iff {s : State} (table : TableSound s) : CopyInUse s ↔ UsesSound s := by
  constructor
  · intro h
    refine ⟨fun g r hr l hl k hk => ?_, fun i g r hg hr k hk => ?_, h.mirror⟩
    · rw [← GalleyTable.useSetOf_some hr]
      exact h.lines g l (by rw [GalleyTable.linesOf_some hr]; exact hl) k hk
    · rw [← GalleyTable.useSetOf_some hr]
      exact h.held i g hg k hk
  · intro h
    refine ⟨fun g l hl k hk => ?_, fun i g hg k hk => ?_, h.mirror⟩
    · cases hr : s.table.records[g] with
      | none =>
        rw [GalleyTable.linesOf_none hr] at hl
        cases hl
      | some r =>
        rw [GalleyTable.linesOf_some hr] at hl
        rw [GalleyTable.useSetOf_some hr]
        exact h.lines g r hr l hl k hk
    · obtain ⟨-, r, hr, -⟩ := table.current i g hg
      rw [GalleyTable.useSetOf_some hr]
      exact h.held i g r hg hr k hk

section
variable {s t : State}

/-- The tables' lines and font-use sets kept, the links' copy kept, the mirror pruned. -/
theorem CopyInUse.follow (h : CopyInUse s) (table : CopyKept s.table t.table) (links : ∀ i : Fin 4,
      t.links[i].setting = s.links[i].setting ∨ t.links[i].setting.galley = none)
    (mirror : ∀ e ∈ t.imaging.mirror, t.slots[e.slot].state ≠ .empty) : CopyInUse t where
  lines g l hl k hk := by
    rw [table.uses g]
    exact h.lines g l (table.lines g l hl) k hk
  held i g hg k hk := by
    rcases links i with same | none
    · rw [same] at hg hk
      rw [table.uses g]
      exact h.held i g hg k hk
    · rw [none] at hg
      cases hg
  mirror := mirror

theorem MirrorPruned.mirror (p : MirrorPruned s t) (h : CopyInUse s) :
    ∀ e ∈ t.imaging.mirror, t.slots[e.slot].state ≠ .empty :=
  fun e he => p.fits e he (h.mirror e (p.sub.subset he))

/-- The directory changed and the mirror with it. -/
theorem CopyInUse.pruned (h : CopyInUse s) (p : MirrorPruned s t) (table : CopyKept s.table t.table)
    (links : t.links = s.links) : CopyInUse t :=
  h.follow table (fun i => .inl (by rw [links])) (p.mirror h)

theorem CopyInUse.onLink (h : CopyInUse s) (i : Fin 4) {f : Link → Link} (setting : ∀ l, (f l).setting = l.setting) :
    CopyInUse (s.onLink i f) := by
  refine h.follow (.refl _) (fun j => .inl ?_) h.mirror
  by_cases same : i = j
  · subst same
    rw [State.onLink, modifyAt_same]
    exact setting _
  · rw [State.onLink, modifyAt_other _ same]

/-- A slot that a galley uses is not EMPTY. -/
theorem DirectoryCounts.used_state (h : DirectoryCounts s) {g : Fin 32} {k : Fin 8} (used : k ∈ s.table.useSetOf g) :
    s.slots[k].state ≠ .empty := fun e => by
  have none : s.table.users k = 0 := (h.1.slot k).unused (.inl e)
  have free := List.countP_eq_zero.1 none g (mem_recordIds g)
  rw [GalleyTable.uses_eq] at free
  exact free (decide_eq_true used)

theorem mirrorFits_rule (slots : Vector Slot 8) :
    MirrorRule (fun m => ∀ e ∈ m, slots[e.slot].state ≠ .empty) fun k => slots[k].state ≠ .empty where
  touch m e he h a ha := by
    rcases List.mem_append.1 ha with ha | ha
    · exact h a (List.mem_filter.1 ha).1
    · rw [List.mem_singleton.1 ha]
      exact h e he
  insert m slot glyph _ used h a ha := by
    rcases List.mem_append.1 ha with ha | ha
    · exact h a ((chooseEntry_sublist m).subset ha)
    · rw [List.mem_singleton.1 ha]
      exact used
  blank m n h a ha := by
    obtain ⟨b, hb, e⟩ := List.mem_map.1 ha
    by_cases hit : b.entry = n
    · rw [if_pos hit] at e
      subst e
      exact h b hb
    · rw [if_neg hit] at e
      exact e ▸ h b hb

theorem CopyInUse.linesOk (h : CopyInUse s) (d : DirectoryCounts s) :
    s.film.LinesOk fun k => s.slots[k].state ≠ .empty := by
  intro r hr l hl k hk
  obtain ⟨g, -, hr⟩ := Option.bind_eq_some_iff.1 hr
  have hr : s.table.records[g] = some r := hr
  refine d.used_state (g := g) (h.lines g l ?_ k hk)
  rw [GalleyTable.linesOf_some hr]
  exact hl

end

/-! ## The Setter's moves -/

section
variable {s : State} {b c : Bench}

/-- What a bench holds of its galley's copy is in the galley's font-use set. -/
theorem CopyInUse.bench (h : CopyInUse (s.putBench b)) {g : Fin 32} (hg : b.link.setting.galley = some g) :
    ∀ k ∈ b.link.setting.usedSlots, k ∈ b.useSet g := by
  have held := h.held b.id g
  rw [s.putBench_own b rfl] at held
  exact held hg

/-- A turn in which every font-use set keeps what it held, the lines' slots and the link's own are in them, and no slot's state
changes. -/
theorem CopyInUse.turned (h : CopyInUse (s.putBench b)) (id : c.id = b.id)
    (grows : ∀ g, ∀ k ∈ b.table.useSetOf g, k ∈ c.table.useSetOf g)
    (lines : ∀ g, ∀ l ∈ c.table.linesOf g, l ∈ b.table.linesOf g ∨ ∀ k ∈ placedSlots l.glyphs, k ∈ c.table.useSetOf g)
    (own : ∀ g, c.link.setting.galley = some g → ∀ k ∈ c.link.setting.usedSlots, k ∈ c.table.useSetOf g)
    (slots : ∀ k : Fin 8, c.slots[k].state = b.slots[k].state) : CopyInUse (s.putBench c) where
  lines g l hl k hk := by
    rcases lines g l hl with before | new
    · exact grows g k (h.lines g l before k hk)
    · exact new k hk
  held i g hg k hk := by
    by_cases same : b.id = i
    · subst same
      rw [s.putBench_own c id] at hg hk
      exact own g hg k hk
    · rw [s.putBench_other c (id ▸ same)] at hg hk
      have held := h.held i g
      rw [s.putBench_other b same] at held
      exact grows g k (held hg k hk)
  mirror e he := by
    show c.slots[e.slot].state ≠ .empty
    rw [slots]
    exact h.mirror e he

/-- A turn that leaves the directory, the lines and the font-use sets alone. -/
theorem CopyInUse.quiet (h : CopyInUse (s.putBench b)) (id : c.id = b.id) (table : CopyKept b.table c.table)
    (own : ∀ g, c.link.setting.galley = some g → ∀ k ∈ c.link.setting.usedSlots, k ∈ b.useSet g) (slots : c.slots = b.slots) :
    CopyInUse (s.putBench c) := by
  refine h.turned id (fun g k hk => ?_) (fun g l hl => .inl (table.lines g l hl)) (fun g hg k hk => ?_) fun k => by rw [slots]
  · rw [table.uses g]
    exact hk
  · rw [table.uses g]
    exact own g hg k hk

theorem Setting.usedSlots_of_cleared {x : Setting} (line : x.line = emptyLine) (held : x.held = none) : x.usedSlots = [] := by
  unfold Setting.usedSlots
  rw [line, held]
  rfl

theorem Setting.usedSlots_congr {x y : Setting} (line : y.line = x.line) (held : y.held = x.held) :
    y.usedSlots = x.usedSlots := by
  unfold Setting.usedSlots
  rw [line, held]

theorem Bench.Covers.all (h : CopyInUse (s.putBench b)) {g : Fin 32} {ks : List (Fin 8)} (hg : b.link.setting.galley = some g)
    (covers : b.Covers True g ks) : ∀ k ∈ ks, k ∈ b.useSet g := fun k hk =>
  (covers k hk).elim (h.bench hg k) fun m => m trivial

theorem Bench.joinSlot_useSetOf (b : Bench) (g : Fin 32) (i : Fin 8) (k : Fin 32) :
    ∀ j ∈ b.table.useSetOf k, j ∈ (b.joinSlot g i).table.useSetOf k := by
  intro j hj
  cases hr : b.table.records[k] with
  | none =>
    rw [GalleyTable.useSetOf_none hr] at hj
    cases hj
  | some r => exact (b.joinSlot_grows g k i (by rw [hr]; exact Option.some_ne_none r)).2 j hj

theorem Bench.joinSlot_linesOf (b : Bench) (g : Fin 32) (i : Fin 8) (k : Fin 32) :
    (b.joinSlot g i).table.linesOf k = b.table.linesOf k := by
  rcases b.joinSlot_cases g i with ⟨e, -⟩ | ⟨r, hr, -, e⟩
  · rw [e]
  · rw [e]
    by_cases same : g = k
    · subst same
      rw [GalleyTable.linesOf_some hr]
      exact GalleyTable.linesOf_some (r := { r with useSet := r.useSet ++ [i] }) (set_same _ _ _)
    · exact GalleyTable.linesOf_congr (set_other _ same _)

theorem Bench.Move.copyInUse (m : b.Move True c) (h : CopyInUse (s.putBench b)) : CopyInUse (s.putBench c) := by
  have noCopy {x : Setting} {t : GalleyTable} (none : x.galley = none) :
      ∀ g, x.galley = some g → ∀ k ∈ x.usedSlots, k ∈ t.useSetOf g := fun g hg => by rw [none] at hg; cases hg
  cases m with
  | setting y quiet =>
    refine h.quiet rfl (.refl _) (fun g hg k hk => ?_) rfl
    rw [show (b.withSetting fun _ => y).link.setting.usedSlots = b.link.setting.usedSlots from
      Setting.usedSlots_congr quiet.line quiet.held] at hk
    exact h.bench (quiet.galley ▸ hg) k hk
  | giveUp y given => exact h.quiet rfl (.refl _) (noCopy given.galley) rfl
  | receiver | measure => exact h.quiet rfl (.refl _) (fun g hg => h.bench hg) rfl
  | flags g f hf =>
    exact h.quiet rfl (.modify _ g fun r => by rw [hf r]; exact ⟨rfl, rfl⟩) (fun g hg => h.bench hg) rfl
  | joinSlot g i =>
    refine h.turned (Bench.joinSlot_id _ _ _) (b.joinSlot_useSetOf g i) (fun k l hl => .inl ?_) (fun k hk j hj => ?_) fun k => ?_
    · rwa [b.joinSlot_linesOf g i k] at hl
    · rw [b.joinSlot_link] at hk hj
      exact b.joinSlot_useSetOf g i k j (h.bench hk j hj)
    · rw [b.joinSlot_slot g i k]
  | joinLine g line galley covers =>
    have within := covers.all h galley
    refine h.quiet rfl (.refl _) (fun k hk j hj => ?_) rfl
    have same : g = k := Option.some.inj (galley.symm.trans hk)
    subst same
    rcases List.mem_append.1 hj with hj | hj
    · exact within j hj
    · exact h.bench galley j (List.mem_append_right _ hj)
  | appendLine g line galley room covers =>
    have within := covers.all h galley
    have uses := SameUses.appendLine b.table g room line
    have ladder : (b.appendLine g line).link.setting.usedSlots = [] := Setting.usedSlots_of_cleared rfl rfl
    refine h.turned rfl (fun k j hj => ?_) (fun k l hl => ?_) (fun k _ j hj => ?_) fun _ => rfl
    · show j ∈ (b.table.appendLine g line).useSetOf k
      rw [uses k]
      exact hj
    · show l ∈ b.table.linesOf k ∨ ∀ j ∈ placedSlots l.glyphs, j ∈ (b.table.appendLine g line).useSetOf k
      rw [uses k]
      have hl : l ∈ (b.table.appendLine g line).linesOf k := hl
      cases hr : b.table.records[g] with
      | none =>
        have same : b.table.appendLine g line = b.table := by
          unfold GalleyTable.appendLine
          rw [hr]
        rw [same] at hl
        exact .inl hl
      | some r =>
        have e := Became.appendLine hr room line
        by_cases same : k = g
        · subst same
          obtain ⟨new, glyphs, appended⟩ := r.appendLine_lines k line
          rw [GalleyTable.linesOf_some e.new, appended] at hl
          rcases List.mem_append.1 hl with hl | hl
          · exact .inl (by rw [GalleyTable.linesOf_some hr]; exact hl)
          · rw [List.mem_singleton.1 hl, glyphs]
            exact .inr within
        · rw [GalleyTable.linesOf_congr (e.others k same)] at hl
          exact .inl hl
    · rw [ladder] at hj
      cases hj
  | hold g p l galley _ covers =>
    have within := covers.all h galley
    refine h.quiet rfl (.refl _) (fun k hk j hj => ?_) rfl
    have same : g = k := Option.some.inj (galley.symm.trans hk)
    subst same
    rcases List.mem_append.1 hj with hj | hj
    · exact h.bench galley j (List.mem_append_left _ hj)
    · exact within j hj
  | endGalley g => exact h.quiet rfl (.endGalley _ g) (noCopy rfl) rfl
  | allocate g free =>
    refine h.quiet rfl (.allocate _ free rfl rfl) (fun k _ j hj => ?_) rfl
    rw [show (b.allocated g).link.setting.usedSlots = [] from Setting.usedSlots_of_cleared rfl rfl] at hj
    cases hj
  | kill g o y _ left =>
    refine h.quiet rfl (.kill _ g o) ?_ rfl
    rcases left with given | ⟨rfl, -⟩
    · exact noCopy given.galley
    · exact fun g hg => h.bench hg
  | resume g => exact h.quiet rfl (.resume _ g) (fun g hg => h.bench hg) rfl
  | setClass g c => exact h.quiet rfl (.setClass _ g c) (fun g hg => h.bench hg) rfl

theorem Bench.Moves.copyInUse (m : b.Moves True c) (h : CopyInUse (s.putBench b)) : CopyInUse (s.putBench c) :=
  m.induct (P := fun b => CopyInUse (s.putBench b)) (fun _ _ one => one.copyInUse) h

end

/-! ## Every step -/

/-- The galleys, the directory and the copy in use in order. -/
structure WorkSound (s : State) : Prop where
  table : TableSound s
  directory : DirectoryCounts s
  uses : CopyInUse s

section
variable {s : State}

theorem WorkSound.freeRecord (h : CopyInUse s) {g : Fin 32} {r : Galley} (table : TableSound s)
    (hr : s.table.records[g] = some r) (done : r.state = .done) : CopyInUse (s.freeRecord g) := by
  have others (k : Fin 32) (hk : k ≠ g) : (s.freeRecord g).table.records[k] = s.table.records[k] := by
    unfold State.freeRecord
    simp only [hr]
    exact set_other _ (Ne.symm hk) _
  have gone : (s.freeRecord g).table.records[g] = none := by
    unfold State.freeRecord
    simp only [hr]
    exact set_same _ _ _
  have links : (s.freeRecord g).links = s.links := by rw [State.freeRecord_eq]
  refine ⟨fun k l hl j hj => ?_, fun i k hk j hj => ?_, (MirrorPruned.freeRecord s g).mirror h⟩
  · by_cases same : k = g
    · subst same
      rw [GalleyTable.linesOf_none gone] at hl
      cases hl
    · rw [GalleyTable.linesOf_congr (others k same)] at hl
      rw [GalleyTable.useSetOf_congr (others k same)]
      exact h.lines k l hl j hj
  · rw [links] at hk hj
    have other : k ≠ g := by
      rintro rfl
      obtain ⟨-, q, hq, receives⟩ := table.current i k hk
      have same : r = q := Option.some.inj (hr.symm.trans hq)
      exact receives.live (same ▸ done)
    rw [GalleyTable.useSetOf_congr (others k other)]
    exact h.held i k hk j hj

theorem WorkSound.completeReply (h : WorkSound s) (i : Fin 4) : CopyInUse (s.completeReply i) := by
  have finished : CopyInUse (s.onLink i fun l => { l with tx := l.tx.finish }) := h.uses.onLink i fun _ => rfl
  have table : TableSound (s.onLink i fun l => { l with tx := l.tx.finish }) :=
    h.table.onLink i rfl (.inr fun _ e => by cases e)
  unfold State.completeReply
  dsimp only
  split
  · exact finished
  · exact finished.onLink i fun _ => rfl
  · exact finished
  · next g tag =>
    obtain ⟨r, hr, done, -⟩ := h.table.final i g tag
    exact WorkSound.freeRecord finished table hr done

/-- With empty lists and links that hold no galley, no copy is in use. -/
theorem CopyInUse.of_empty (table : s.table = emptyTable) (links : ∀ i : Fin 4, s.links[i].setting.galley = none)
    (mirror : s.imaging.mirror = []) : CopyInUse s := by
  refine ⟨fun g l hl => ?_, fun i g hg => ?_, fun e he => ?_⟩
  · rw [table, GalleyTable.linesOf_none (Vector.getElem_replicate _)] at hl
    cases hl
  · rw [links i] at hg
    cases hg
  · rw [mirror] at he
    cases he

theorem CopyInUse.settle (h : CopyInUse s) : CopyInUse s.settle :=
  h.follow s.settle_copyKept (fun i => .inl (s.settle_link i).2) ((MirrorPruned.settle s).mirror h)

theorem CopyInUse.powerOn (s : State) : CopyInUse s.powerOn := by
  unfold State.powerOn
  refine CopyInUse.settle (.of_empty rfl (fun i => ?_) (Imaging.afterPowerOn_mirror _))
  show (s.powerCutStore.links.map Link.afterPowerOn)[i].setting.galley = none
  rw [Fin.getElem_fin, Vector.getElem_map]
  rfl

theorem CopyInUse.workReset (s : State) : CopyInUse s.workReset := by
  refine .of_empty rfl (fun i => ?_) (Imaging.afterLibraryReset_mirror _)
  show (s.links.map Link.afterLibraryReset)[i].setting.galley = none
  rw [Fin.getElem_fin, Vector.getElem_map]
  rfl

theorem WorkSound.moves (h : WorkSound s) {i : Fin 4} {c : Bench}
    (m : ∀ ok : Prop, (ok → (s.bench i).UsesHeld) → (s.bench i).Moves ok c) : CopyInUse (s.putBench c) := by
  have start : CopyInUse (s.putBench (s.bench i)) := by
    rw [s.putBench_bench]
    exact h.uses
  exact (m True fun _ g hg _ => h.uses.held i g hg).copyInUse start

end

theorem workSound_kept : KeptByWork WorkSound where
  frame h same := ⟨tableSound_kept.frame h.table same, directoryCounts_kept.frame h.directory same,
    h.uses.pruned (.of_same same.slots (by rw [same.imaging])) (same.table ▸ .refl _) same.links⟩
  settle s h := ⟨h.table.settle, h.directory.settle, h.uses.settle⟩
  powerOn s h := ⟨tableSound_kept.powerOn s h.table, .powerOn s, .powerOn s⟩
  reset s h := ⟨tableSound_kept.reset s h.table, h.directory.workReset, .workReset s⟩
  startCopy s i b o empty idle h := ⟨tableSound_kept.startCopy s i b o empty idle h.table, h.directory.startCopy empty idle b o,
    h.uses.pruned (.startCopy s i b o) (by rw [State.startCopy_eq]; exact .refl _) (by rw [State.startCopy_eq])⟩
  withdraw s i n resolved h := ⟨tableSound_kept.withdraw s i n resolved h.table,
    directoryCounts_kept.withdraw s i n resolved h.directory,
    h.uses.pruned (.withdraw s i) (by rw [State.withdraw_eq]; exact .refl _) (by rw [State.withdraw_eq])⟩
  copyRead s job hc h := ⟨tableSound_kept.copyRead s job hc h.table, h.directory.copyRead hc,
    h.uses.pruned (.copyRead s job) (by rw [State.copyRead_eq]; exact .refl _) (by rw [State.copyRead_eq])⟩
  loseSlots s p h := ⟨tableSound_kept.loseSlots s p h.table, h.directory.loseSlots p slotIds,
    h.uses.pruned (.loseSlots s p slotIds) (by rw [State.loseSlots_eq]; exact .refl _) (by rw [State.loseSlots_eq])⟩
  cutFetch s p h := by
    refine ⟨tableSound_kept.cutFetch s p h.table, directoryCounts_kept.cutFetch s p h.directory, ?_⟩
    unfold State.cutFetch
    repeat' split
    · exact h.uses
    · exact h.uses.follow s.film.deliverBlank_copyKept (fun _ => .inl rfl)
        ((mirrorFits_rule s.slots).deliverBlank (f := s.film) h.uses.mirror)
    · exact h.uses
  moves s i c m h := ⟨tableSound_kept.moves s i c m h.table, directoryCounts_kept.moves s i c m h.directory, h.moves m⟩
  receiver s i f sound h := ⟨tableSound_kept.receiver s i f sound h.table, directoryCounts_kept.receiver s i f sound h.directory,
    h.uses.onLink i fun _ => rfl⟩
  readyOn s i h := ⟨tableSound_kept.readyOn s i h.table, directoryCounts_kept.readyOn s i h.directory,
    h.uses.onLink i fun _ => rfl⟩
  readyOff s i h := ⟨tableSound_kept.readyOff s i h.table, directoryCounts_kept.readyOff s i h.directory,
    h.uses.onLink i fun _ => rfl⟩
  nextByte s i busy more h := ⟨tableSound_kept.nextByte s i busy more h.table,
    directoryCounts_kept.nextByte s i busy more h.directory, h.uses.onLink i fun _ => rfl⟩
  completeReply s i busy h := ⟨tableSound_kept.completeReply s i busy h.table,
    directoryCounts_kept.completeReply s i busy h.directory, h.completeReply i⟩
  acked s o out sound h := ⟨tableSound_kept.acked s o out sound h.table, directoryCounts_kept.acked s o out sound h.directory,
    h.uses.follow (s.film.acked_copyKept o.record) (fun _ => .inl rfl)
      ((mirrorFits_rule s.slots).acked (f := s.film) h.uses.mirror (h.uses.linesOk h.directory) o.record)⟩
  fault s h := ⟨tableSound_kept.fault s h.table, directoryCounts_kept.fault s h.directory,
    h.uses.follow s.film.fault_copyKept (fun _ => .inl rfl) h.uses.mirror⟩
  unit s m quiet h := by
    refine ⟨tableSound_kept.unit s m quiet h.table, directoryCounts_kept.unit s m quiet h.directory,
      h.uses.follow (.refl _) (fun _ => .inl rfl) fun e he => ?_⟩
    have he : e ∈ m.mirror := he
    rcases quiet.mirror with same | empty
    · exact h.uses.mirror e (same ▸ he)
    · rw [empty] at he
      cases he

/-- Settles O54: the walk makes an entry only for a slot of a line, which its galley's font-use set holds, and a slot's entry to
EMPTY drops its entries. -/
theorem stepKeepsMirrorSound : Obligations.StepKeepsMirrorSound := by
  unfold Obligations.StepKeepsMirrorSound
  refine ⟨fun _ _ => mirrorKept_kept.events.step, fun s t table directory counts uses next => ?_⟩
  have before : WorkSound s := ⟨table, (directoryCounts_iff s).2 ⟨directory, counts⟩, (copyInUse_iff table).2 uses⟩
  have after := workSound_kept.events.step before next
  exact (copyInUse_iff after.table).1 after.uses

end Sys2Proof.Machine

/-! The values after a reset, the queue, and the events of the imaging unit that no galley's line is at work in (R23, R120, R121,
R122, R162, R163, R171, R173, R175). -/

namespace Sys2Proof.Machine

/-! ## The queue and the reset -/

/-- Settles O1: the definition of a step, by the two shapes of the queue. -/
theorem stepRunsFrontCommand : Obligations.StepRunsFrontCommand := by
  unfold Obligations.StepRunsFrontCommand
  refine ⟨fun c rest s => rfl, fun s empty => ?_⟩
  unfold step
  rw [empty]

theorem State.reset_slots (i : Fin 8) : State.reset.slots[i] = emptySlotRecord := Vector.getElem_replicate _
theorem State.reset_records (g : Fin 32) : State.reset.table.records[g] = none := Vector.getElem_replicate _
theorem State.reset_links (i : Fin 4) : State.reset.links[i] = resetLink := Vector.getElem_replicate _
theorem State.reset_banks (p : Fin 8) : State.reset.banks[p] = { board := none, cartridge := none, prot := false } :=
  Vector.getElem_replicate _

/-- Settles O2: the reset state is written with the manual's values; a table of equal records gives the record at each index. -/
theorem resetLeavesStatedValues : Obligations.ResetLeavesStatedValues := by
  unfold Obligations.ResetLeavesStatedValues
  refine ⟨State.reset_slots, rfl, rfl, State.reset_records, rfl, rfl, rfl, rfl, rfl, fun i => ?_, rfl, rfl, rfl, rfl, rfl, rfl,
    rfl, rfl, rfl⟩
  dsimp only
  rw [State.reset_links]
  exact ⟨rfl, rfl, rfl, rfl, rfl, rfl, rfl, rfl, rfl, rfl, rfl, rfl, rfl, rfl, rfl, rfl, rfl, rfl, rfl, rfl, rfl, rfl, rfl, rfl,
    rfl, rfl⟩

/-- Settles O3: at reset every table is empty, so each invariant holds of nothing. -/
theorem resetMeetsInvariants : Obligations.ResetMeetsInvariants := by
  unfold Obligations.ResetMeetsInvariants
  have noRecord {g : Fin 32} {r : Galley} (h : State.reset.table.records[g] = some r) : False := by
    rw [State.reset_records] at h
    cases h
  have empty (i : Fin 8) : State.reset.slots[i].state = .empty := by rw [State.reset_slots]; rfl
  have store : StoreCanonical State.reset := ⟨fun p => by rw [State.reset_banks]; exact ⟨trivial, trivial⟩, trivial⟩
  have directory : DirectorySound State.reset := by
    refine ⟨fun i => ⟨fun h => ?_, fun ⟨_, h, _⟩ => (by cases h)⟩, fun i j h => ?_, fun i _ => State.reset_slots i⟩
    · rw [empty] at h
      cases h
    · rw [empty] at h
      cases h
  have counts : CountsSound State.reset := by
    refine ⟨fun i => ?_, fun g r h => (noRecord h).elim, fun i _ => ?_, fun i h => ?_⟩
    · rw [State.reset_slots]
      exact (emptyTable_users i).symm
    · rw [State.reset_slots]
      rfl
    · rw [empty] at h
      cases h
  have uses : UsesSound State.reset :=
    ⟨fun g r h => (noRecord h).elim, fun i g r _ h => (noRecord h).elim, fun e h => (by cases h)⟩
  have bus : BusSound State.reset := ⟨fun u h => (by cases h), fun _ u => (by cases u <;> rfl)⟩
  have settled : Settled State.reset := by
    refine ⟨fun h => (by cases h), fun h => (by cases h), fun i _ h => ?_, fun _ => rfl⟩
    rw [State.reset_links] at h
    cases h
  have links (i : Fin 4) : LinkSound State.reset.links[i] := by rw [State.reset_links]; exact resetLink_sound resetLink
  have table : TableSound State.reset := .of_empty rfl rfl fun i => by rw [State.reset_links]; exact ⟨rfl, rfl⟩
  exact ⟨store, directory, counts, ⟨.nil, .nil⟩, uses, bus, settled, links, table⟩

end Sys2Proof.Machine

/-! The answers of the imaging unit: faults, timeouts, void records, the ready line and CLEAR UNIT (R121, R122, R163, R171 to
R173). -/

namespace Sys2Proof.Machine

/-! ## A galley's leave of the store and its failure (R121, R122) -/

section
variable {t : GalleyTable} {g : Fin 32} {r : Galley}

/-- The table with a galley's lines returned and the galley DONE. -/
theorem GalleyTable.finish_eq (hr : t.records[g] = some r) (o : GalleyOutcome) :
    t.finish g o =
      { t with eligible := t.eligible.filter (· ≠ g), freeLines := t.freeLines + r.lines.length
               records := t.records.set g (some (r.finished o)) } := by
  unfold GalleyTable.finish GalleyTable.leaveEligible GalleyTable.returnLines GalleyTable.modify
  simp only [hr]
  simp [Galley.finished]

/-- The record of an exposing galley after a fault (R122). -/
def Galley.faulted (r : Galley) : Galley :=
  if r.killPending then { r with state := .done, lines := [], mark := true }
  else if r.ended = true ∧ r.lines = [] then { r with state := .done, outcome := .exposed, mark := true }
  else { r with state := .failed, mark := true }

theorem GalleyTable.faulted_spec (hr : t.records[g] = some r) :
    (t.faulted g).records[g] = some r.faulted ∧
      (t.faulted g).freeLines = t.freeLines + (if r.killPending then r.lines.length else 0) ∧
      ∀ h : Fin 32, h ≠ g → (t.faulted g).records[h] = t.records[h] := by
  unfold GalleyTable.faulted Galley.faulted
  simp only [hr]
  by_cases kill : r.killPending = true
  · simp only [if_pos kill, GalleyTable.finish_eq hr]
    exact ⟨set_same _ _ _, trivial, fun h hh => set_other _ (Ne.symm hh) _⟩
  · simp only [if_neg kill]
    by_cases whole : r.ended = true ∧ r.lines = []
    · simp only [if_pos whole, GalleyTable.finish_eq hr]
      refine ⟨?_, by simp [whole.2], fun h hh => set_other _ (Ne.symm hh) _⟩
      rw [set_same]
      unfold Galley.finished
      rw [whole.2]
    · simp only [if_neg whole, GalleyTable.modify_of_some hr]
      exact ⟨set_same _ _ _, rfl, fun h hh => set_other _ (Ne.symm hh) _⟩

end

/-! ## Faults (R171) -/

/-- The Exposure Controller in FAULT (R171). -/
def Imaging.faulted (m : Imaging) : Imaging :=
  { m with unit := .fault, out := none, galley := none, pos := 0, inProgress := false, fetch := none }

theorem State.faultUnit_imaging (s : State) (k : Option FaultKind) : (s.faultUnit k).imaging = s.imaging.faulted := rfl

/-- The Galley Table after a fault: the exposing galley's record by R122, all others as they were. -/
def State.faultedTable (s : State) : GalleyTable :=
  match s.imaging.galley with
  | none => s.table
  | some g => s.table.faulted g

theorem State.faultUnit_table (s : State) (k : Option FaultKind) : (s.faultUnit k).table = s.faultedTable := rfl

theorem State.faultedTable_of_none {s : State} (h : s.imaging.galley = none) : s.faultedTable = s.table := by
  unfold State.faultedTable
  rw [h]

theorem State.faultedTable_of_some {s : State} {g : Fin 32} (h : s.imaging.galley = some g) :
    s.faultedTable = s.table.faulted g := by
  unfold State.faultedTable
  rw [h]

section
variable {s : State} {o : Record}

theorem State.concludeRecord_of_live (h : s.imaging.out = some { record := o, void := false }) (k : Option FaultKind) :
    s.concludeRecord k = (s.faultUnit k).settle := by
  unfold State.concludeRecord
  rw [h]
  rfl

theorem State.concludeRecord_of_void (h : s.imaging.out = some { record := o, void := true }) (k : Option FaultKind) :
    s.concludeRecord k = (s.onImaging Imaging.voidEnded).settle := by
  unfold State.concludeRecord
  rw [h]
  rfl

theorem State.concludeRecord_of_none (h : s.imaging.out = none) (k : Option FaultKind) : s.concludeRecord k = s := by
  unfold State.concludeRecord
  rw [h]

theorem State.ackUnit_of_none (h : s.imaging.out = none) : s.ackUnit = s := by
  unfold State.ackUnit
  rw [h]

theorem State.ackUnit_of_unsent {void : Bool} (h : s.imaging.out = some { record := o, void := void })
    (unsent : o.sentWhole = false) : s.ackUnit = s := by
  unfold State.ackUnit
  simp [h, unsent]

theorem State.ackUnit_of_void (h : s.imaging.out = some { record := o, void := true }) (sent : o.sentWhole = true) :
    s.ackUnit = (s.onImaging Imaging.voidEnded).settle := by
  unfold State.ackUnit
  simp [h, sent]

theorem State.ackUnit_of_live (h : s.imaging.out = some { record := o, void := false }) (sent : o.sentWhole = true) :
    s.ackUnit = (s.putFilm (s.film.acked o)).settle := by
  unfold State.ackUnit
  simp [h, sent]

end

/-- After a fault the reactions find no walk to wake and no unit that is READY: the fetcher holds the bus no more. -/
theorem State.faultUnit_no_fetcher (s : State) (k : Option FaultKind) :
    (s.faultUnit k).settle.bus.holder ≠ some .fetcher := by
  intro held
  have wants := (s.faultUnit k).settle_busSound.holder _ held
  have idle : (s.faultUnit k).settle.imaging = s.imaging.faulted :=
    State.settle_imaging_same (fun e => by cases e) (fun e => by cases e)
  unfold State.wantsBus at wants
  rw [idle] at wants
  cases wants

/-- Settles O49: both answers conclude the record by one fault, which differs in the cause alone. -/
theorem faultOrTimeoutFaultsUnit : Obligations.FaultOrTimeoutFaultsUnit := by
  unfold Obligations.FaultOrTimeoutFaultsUnit
  intro s o kind out
  refine ⟨s.faultUnit (some (faultKindOf kind)), s.faultUnit none, ?_, ?_, ?_, rfl, rfl, rfl, rfl, s.faultUnit_no_fetcher _,
    s.faultUnit_no_fetcher _, fun walk => ?_, fun g r walk hr => ?_, rfl, rfl, rfl, rfl, rfl, rfl, rfl, rfl⟩
  · rw [exec_unitFault, State.concludeRecord_of_live out]
  · rw [exec_recordTimeout, State.concludeRecord_of_live out]
  · cases kind <;> rfl
  · rw [State.faultUnit_table, State.faultedTable_of_none walk]
  · rw [State.faultUnit_table, State.faultedTable_of_some walk]
    exact GalleyTable.faulted_spec hr

/-! ## Void records and answers out of place (R162, R163, R173, R175) -/

theorem Imaging.voidEnded_eq (m : Imaging) :
    m.voidEnded = if m.unit = .sending then
        { m with mirror := [], out := some { record := .cacheClear, void := false } }
      else { m with out := none } := by
  unfold Imaging.voidEnded
  dsimp only
  split
  · next sending =>
    simp [Imaging.sendCacheClear, Imaging.send, sending]
  · rfl

/-- Settles O50: each answer to a void record ends it, whatever the answer. -/
theorem voidRecordOnlyMakesWay : Obligations.VoidRecordOnlyMakesWay := by
  unfold Obligations.VoidRecordOnlyMakesWay
  intro s o kind out u hu
  have ended : s.onImaging Imaging.voidEnded = u := by
    rw [hu]
    show { s with imaging := s.imaging.voidEnded } = _
    rw [Imaging.voidEnded_eq]
  refine ⟨?_, ?_, fun sent => ?_⟩
  · rw [exec_unitFault, State.concludeRecord_of_void out, ended]
  · rw [exec_recordTimeout, State.concludeRecord_of_void out, ended]
  · rw [exec_unitAck, State.ackUnit_of_void out sent, ended]

/-- A word that is none of the four answers of the unit is ignored (R175). -/
theorem State.answerWord_of_other (s : State) {w : Word} (ack : w ≠ 0x0000#16) (filmOut : w ≠ 0x0101#16)
    (jam : w ≠ 0x0102#16) (lamp : w ≠ 0x0103#16) : s.answerWord w = s := by
  have other {v : Word} (h : w ≠ v) (e : w.toNat = v.toNat) : False := h (BitVec.eq_of_toNat_eq e)
  unfold State.answerWord
  split
  · next e => exact (other ack e).elim
  · next e => exact (other filmOut e).elim
  · next e => exact (other jam e).elim
  · next e => exact (other lamp e).elim
  · rfl

/-- Settles O51: an answer acts only on a record outstanding, and an ACK only on one sent whole. -/
theorem answersOutOfPlaceAreIgnored : Obligations.AnswersOutOfPlaceAreIgnored := by
  unfold Obligations.AnswersOutOfPlaceAreIgnored
  intro s
  refine ⟨fun out => ⟨?_, fun kind => ?_, ?_⟩, fun n void out => ?_, fun w ack filmOut jam lamp => ?_⟩
  · rw [exec_unitAck, State.ackUnit_of_none out]
  · rw [exec_unitFault, State.concludeRecord_of_none out]
  · rw [exec_recordTimeout, State.concludeRecord_of_none out]
  · rw [exec_unitAck, State.ackUnit_of_unsent out rfl]
  · rw [exec_unitAnswerInvalid, s.answerWord_of_other ack filmOut jam lamp]

/-! ## The ready line (R163, R171, R173) -/

section
variable {s : State}

theorem State.readyOnUnit_of_on (h : s.imaging.ready = true) : s.readyOnUnit = s := if_pos h

theorem State.readyOnUnit_of_offline (off : s.imaging.ready = false) (offline : s.imaging.unit = .offline) :
    s.readyOnUnit = (s.onImaging Imaging.comeOn).settle := by
  unfold State.readyOnUnit
  rw [if_neg (by simp [off]), if_pos offline]

theorem State.readyOnUnit_of_online (off : s.imaging.ready = false) (online : s.imaging.unit ≠ .offline) :
    s.readyOnUnit = { s with imaging := { s.imaging with ready := true } } := by
  unfold State.readyOnUnit
  rw [if_neg (by simp [off]), if_neg online]
  rfl

/-- The Exposure Controller with the ready line off (R163). -/
def Imaging.lineOff (m : Imaging) : Imaging := { m with ready := false }

theorem State.readyOffUnit_of_off (h : s.imaging.ready = false) : s.readyOffUnit = s := if_neg (by simp [h])

theorem State.readyOffUnit_of_offline (on : s.imaging.ready = true) (offline : s.imaging.unit = .offline) :
    s.readyOffUnit = s.onImaging Imaging.lineOff := by
  unfold State.readyOffUnit
  rw [if_pos on]
  exact if_pos offline

theorem State.readyOffUnit_of_void (on : s.imaging.ready = true) (online : s.imaging.unit ≠ .offline)
    (void : s.imaging.voidOut = true) :
    s.readyOffUnit = ((s.onImaging Imaging.lineOff).onImaging fun m => { m with unit := .offline }).settle := by
  unfold State.readyOffUnit
  rw [if_pos on]
  exact (if_neg online).trans (if_pos void)

theorem State.readyOffUnit_of_fault (on : s.imaging.ready = true) (online : s.imaging.unit ≠ .offline)
    (live : s.imaging.voidOut = false) :
    s.readyOffUnit = ((s.onImaging Imaging.lineOff).faultUnit (some .notReady)).settle := by
  unfold State.readyOffUnit
  rw [if_pos on]
  exact (if_neg online).trans (if_neg (Bool.eq_false_iff.1 live))

end

/-- Settles O52: by the line's state, the unit's state and whether a void record is outstanding. -/
theorem unitReadyLineCarriesService : Obligations.UnitReadyLineCarriesService := by
  unfold Obligations.UnitReadyLineCarriesService
  intro s
  refine ⟨fun off offline => ?_, fun off online => ?_, fun on => ?_, fun off => ?_, fun on offline => ?_,
    fun o on online void => ?_, fun on online live => ?_⟩
  · rw [exec_unitReadyOn, State.readyOnUnit_of_offline off offline]
    unfold State.onImaging Imaging.comeOn
    cases out : s.imaging.out with
    | none => simp [Imaging.sendCacheClear, Imaging.send]
    | some o => simp [out]
  · rw [exec_unitReadyOn, State.readyOnUnit_of_online off online]
  · rw [exec_unitReadyOn, State.readyOnUnit_of_on on]
  · rw [exec_unitReadyOff, State.readyOffUnit_of_off off]
  · rw [exec_unitReadyOff, State.readyOffUnit_of_offline on offline]
    rfl
  · have voidOut : s.imaging.voidOut = true := by
      unfold Imaging.voidOut
      rw [void]
    rw [exec_unitReadyOff, State.readyOffUnit_of_void on online voidOut]
    rfl
  · have notVoid : s.imaging.voidOut = false := by
      unfold Imaging.voidOut
      cases out : s.imaging.out with
      | none => rfl
      | some o => exact live o out
    refine ⟨(s.onImaging Imaging.lineOff).faultUnit (some .notReady), ?_, rfl, rfl, fun walk => ?_,
      fun g r walk hr noKill lines => ?_, rfl, rfl, rfl, rfl⟩
    · rw [exec_unitReadyOff, State.readyOffUnit_of_fault on online notVoid]
    · rw [State.faultUnit_table, State.faultedTable_of_none (s := s.onImaging Imaging.lineOff) walk]
      rfl
    · obtain ⟨record, free, -⟩ := GalleyTable.faulted_spec hr
      rw [State.faultUnit_table, State.faultedTable_of_some (s := s.onImaging Imaging.lineOff) walk]
      refine ⟨record.trans ?_, free.trans ?_⟩
      · simp [Galley.faulted, noKill, lines]
      · simp [noKill]

end Sys2Proof.Machine

/-! The film: the galley that a selection round chooses, and the walk of the exposing galley line by line and glyph by glyph (R116,
R119 to R121, R164 to R168, R170). -/

namespace Sys2Proof.Machine

/-! ## The lowest index with a property -/

/-- Of a list of all indices in rising order, the first with a property is the lowest with it. -/
theorem find?_rising {n : Nat} {l : List (Fin n)} (rising : l.Pairwise (· < ·)) (all : ∀ i, i ∈ l) {p : Fin n → Bool}
    {i : Fin n} : l.find? p = some i ↔ p i = true ∧ ∀ j < i, p j = false := by
  refine ⟨fun h => ?_, fun ⟨hi, before⟩ => ?_⟩
  · obtain ⟨hi, pre, post, split, none⟩ := List.find?_eq_some_iff_append.1 h
    refine ⟨hi, fun j less => ?_⟩
    rw [split] at rising all
    rcases List.mem_append.1 (all j) with m | m
    · simpa using none j m
    · rcases List.mem_cons.1 m with same | m
      · exact absurd (same ▸ less) (lt_irrefl _)
      · exact absurd (lt_trans less ((List.pairwise_cons.1 (List.pairwise_append.1 rising).2.1).1 j m)) (lt_irrefl _)
  · obtain ⟨pre, post, split⟩ := List.append_of_mem (all i)
    refine List.find?_eq_some_iff_append.2 ⟨hi, pre, post, split, fun j m => ?_⟩
    rw [split] at rising
    have less := (List.pairwise_append.1 rising).2.2 j m i List.mem_cons_self
    rw [before j less]
    rfl

theorem entryIds_eq : entryIds = List.finRange 64 := by decide

theorem mem_entryIds (n : Fin 64) : n ∈ entryIds := by
  rw [entryIds_eq]
  exact List.mem_finRange n

theorem entryIds_rising : entryIds.Pairwise (· < ·) := by
  rw [entryIds_eq]
  exact List.pairwise_lt_finRange 64

/-! ## The galley chosen for film (R119) -/

/-- A galley stands before another in a selection round by its class or, in class 2, by its deadline tag (R119). -/
def Galley.before (r q : Galley) : Prop := r.cls < q.cls ∨ (r.cls = q.cls ∧ r.cls = 2 ∧ r.deadline < q.deadline)

/-- The record at place i of the list is chosen over the one at place j: it stands before it, or equals it and is no later. -/
def Galley.chosenOver (r q : Galley) (i j : Nat) : Prop :=
  r.cls < q.cls ∨ (r.cls = q.cls ∧ r.cls = 2 ∧ r.deadline < q.deadline) ∨
    (r.cls = q.cls ∧ (r.cls = 2 → r.deadline = q.deadline) ∧ i ≤ j)

/-- Place i of a list holds a galley, of record r, that is chosen over all of the list. -/
structure FirstBest (t : GalleyTable) (l : List (Fin 32)) (i : Nat) (g : Fin 32) (r : Galley) : Prop where
  place : l[i]? = some g
  best : ∀ (j : Nat) (h : Fin 32) (q : Galley), l[j]? = some h → t.records[h] = some q → r.chosenOver q i j

section
variable {t : GalleyTable} {l : List (Fin 32)} {g h : Fin 32} {r q : Galley} {i j : Nat}

theorem betterGalley_first (hr : t.records[g] = some r) : betterGalley t none g = some g := by
  unfold betterGalley
  rw [hr]
  rfl

theorem betterGalley_of_before (hr : t.records[g] = some r) (hq : t.records[h] = some q) (b : q.before r) :
    betterGalley t (some g) h = some h := by
  unfold betterGalley
  simp only [hq, hr, Option.bind]
  exact if_pos b

theorem betterGalley_of_not_before (hr : t.records[g] = some r) (hq : t.records[h] = some q) (b : ¬ q.before r) :
    betterGalley t (some g) h = some g := by
  unfold betterGalley
  simp only [hq, hr, Option.bind]
  exact if_neg b

theorem Galley.chosenOver_refl (r : Galley) (i : Nat) : r.chosenOver r i i := .inr (.inr ⟨rfl, fun _ => rfl, Nat.le_refl i⟩)

/-- A galley that stands before the one chosen so far is chosen over all that one is chosen over. -/
theorem Galley.before.chosenOver {x : Galley} {k : Nat} (b : q.before r) (o : r.chosenOver x i j) : q.chosenOver x k j := by
  unfold Galley.before at b
  unfold Galley.chosenOver at o ⊢
  omega

theorem Galley.chosenOver_of_not_before (b : ¬ q.before r) (le : i ≤ j) : r.chosenOver q i j := by
  unfold Galley.before at b
  unfold Galley.chosenOver
  omega

/-- Two galleys chosen over each other stand at one place. -/
theorem Galley.chosenOver_antisymm (a : r.chosenOver q i j) (b : q.chosenOver r j i) : i = j := by
  unfold Galley.chosenOver at a b
  omega

theorem FirstBest.unique {g' : Fin 32} {r' : Galley} (a : FirstBest t l i g r) (b : FirstBest t l j g' r')
    (hr : t.records[g] = some r) (hr' : t.records[g'] = some r') : g = g' := by
  have same := Galley.chosenOver_antisymm (a.best j g' r' b.place hr') (b.best i g r a.place hr)
  have place := a.place
  rw [same, b.place] at place
  exact (Option.some.inj place).symm

/-- A place of a list with one more element is a place of the list, or the last. -/
theorem getElem?_concat {α : Type} {l : List α} {x y : α} {j : Nat} (h : (l ++ [x])[j]? = some y) :
    l[j]? = some y ∨ (j = l.length ∧ x = y) := by
  rcases Nat.lt_trichotomy j l.length with less | same | more
  · exact .inl (by rwa [List.getElem?_append_left less] at h)
  · subst same
    exact .inr ⟨rfl, by simpa using h⟩
  · rw [List.getElem?_eq_none (by simp; omega)] at h
    cases h

/-- The galley that leads so far, with one more galley of the list compared to it. -/
theorem FirstBest.concat (a : FirstBest t l i g r) (hr : t.records[g] = some r) (hq : t.records[h] = some q) :
    ∃ g' r' i', betterGalley t (some g) h = some g' ∧ t.records[g'] = some r' ∧ FirstBest t (l ++ [h]) i' g' r' := by
  have within : i < l.length := List.getElem?_eq_some_iff.1 a.place |>.1
  have last {x : Fin 32} {p : Galley} (same : h = x) (hp : t.records[x] = some p) : p = q := by
    subst same
    exact Option.some.inj (hp.symm.trans hq)
  by_cases b : q.before r
  · refine ⟨h, q, l.length, betterGalley_of_before hr hq b, hq, by simp, fun j x p hj hp => ?_⟩
    rcases getElem?_concat hj with old | ⟨new, same⟩
    · exact b.chosenOver (a.best j x p old hp)
    · rw [last same hp, new]
      exact q.chosenOver_refl _
  · refine ⟨g, r, i, betterGalley_of_not_before hr hq b, hr, by rw [List.getElem?_append_left within, a.place],
      fun j x p hj hp => ?_⟩
    rcases getElem?_concat hj with old | ⟨new, same⟩
    · exact a.best j x p old hp
    · rw [last same hp, new]
      exact Galley.chosenOver_of_not_before b (Nat.le_of_lt within)

/-- What a selection round finds in a list: nothing in an empty one, else the first best. -/
theorem foldl_betterGalley (l : List (Fin 32)) (records : ∀ g ∈ l, (t.records[g]).isSome = true) :
    (l = [] ∧ l.foldl (betterGalley t) none = none) ∨
      ∃ g r i, l.foldl (betterGalley t) none = some g ∧ t.records[g] = some r ∧ FirstBest t l i g r := by
  induction l using List.reverseRecOn with
  | nil => exact .inl ⟨rfl, rfl⟩
  | append_singleton l h ih =>
    obtain ⟨q, hq⟩ := Option.isSome_iff_exists.1 (records h (by simp))
    rw [List.foldl_concat]
    rcases ih fun g m => records g (List.mem_append_left _ m) with ⟨empty, none⟩ | ⟨g, r, i, lead, hr, a⟩
    · subst empty
      refine .inr ⟨h, q, 0, betterGalley_first hq, hq, rfl, fun j x p hj hp => ?_⟩
      rcases getElem?_concat hj with old | ⟨new, same⟩
      · cases old
      · subst same
        rw [Option.some.inj (hp.symm.trans hq), new]
        exact q.chosenOver_refl _
    · rw [lead]
      exact .inr (a.concat hr hq)

end

/-- Settles O44: the fold keeps the first best of what it has seen, and a list has one first best. -/
theorem selectionChoosesTheFirstBest : Obligations.SelectionChoosesTheFirstBest := by
  unfold Obligations.SelectionChoosesTheFirstBest
  intro t records
  have chosen : t.choose = t.eligible.foldl (betterGalley t) none := rfl
  rcases foldl_betterGalley t.eligible records with ⟨empty, none⟩ | ⟨g, r, i, some, hr, best⟩
  · refine ⟨⟨fun _ => empty, fun _ => chosen.trans none⟩, fun g r _ => ?_⟩
    rw [chosen, none, empty]
    exact ⟨fun e => (by cases e), fun ⟨_, e, _⟩ => (by cases e)⟩
  · rw [chosen, some]
    refine ⟨⟨fun e => (by cases e), fun empty => ?_⟩, fun g' r' hr' => ⟨fun e => ?_, fun ⟨j, place, top⟩ => ?_⟩⟩
    · have place := best.place
      rw [empty] at place
      cases place
    · obtain rfl := Option.some.inj e
      obtain rfl := Option.some.inj (hr.symm.trans hr')
      exact ⟨i, best.place, best.best⟩
    · rw [best.unique (⟨place, top⟩ : FirstBest t t.eligible j g' r') hr hr']

end Sys2Proof.Machine

/-! The walk of the exposing galley: what the ACK of each record brings about (R116, R121, R164 to R168, R170). -/

namespace Sys2Proof.Machine

/-- Settles O45: the unit is READY after the ACK, so the reactions take the selection round. -/
theorem ackOfCacheClearReadiesUnit : Obligations.AckOfCacheClearReadiesUnit := by
  unfold Obligations.AckOfCacheClearReadiesUnit
  intro s out walk
  let u : State := { s with imaging := { s.imaging with unit := .ready, out := none } }
  have acked : exec .unitAck s = .next u.settle := by
    rw [exec_unitAck, State.ackUnit_of_live out rfl]
    rfl
  have awake : u.wakeWalk = u := State.wakeWalk_of_not_waiting fun e => by cases e
  have marks := u.settle_marksTaken
  have imaging := u.settle_imaging_eq
  rw [awake] at marks imaging
  refine ⟨fun noGalley => ?_, fun g r chosen hr => ?_⟩
  · rw [State.selectionRound_of_none (s := u) noGalley] at marks imaging
    exact ⟨u.settle, acked, imaging, u.settle_slots, u.settle_banks, u.settle_port, marks.eligible⟩
  · have round : u.selectionRound = { u with table := u.table.select g, imaging := u.imaging.opened g r } := by
      rcases u.selectionRound_cases with ⟨-, none⟩ | ⟨g', r', -, -, chosen', hr', e⟩
      · have := (none rfl walk).symm.trans chosen
        cases this
      · obtain rfl := Option.some.inj (chosen'.symm.trans chosen)
        obtain rfl := Option.some.inj (hr'.symm.trans hr)
        exact e
    have selected := GalleyTable.select_eq hr
    rw [round] at marks imaging
    have record : (u.table.select g).records[g] = some r.exposed := by
      rw [show u.table.select g = s.table.select g from rfl, selected]
      exact set_same _ _ _
    obtain ⟨m, hm⟩ := marks.record g _ record
    refine ⟨u.settle, { r.exposed with mark := m }, acked, ?_, ?_, ?_, ?_, hm, rfl, ?_, ?_, u.settle_slots, u.settle_banks⟩
    · rw [imaging]; rfl
    · rw [imaging]; rfl
    · rw [imaging]; rfl
    · rw [imaging]; rfl
    · rw [marks.eligible]
      show g ∉ (s.table.select g).eligible
      rw [selected]
      simp
    · rw [marks.freeLines]
      show (s.table.select g).freeLines = _
      rw [selected]

/-! ## Between two lines (R164, R165, R170) -/

/-- The record of a galley with the line at its head exposed and freed (R116, R165). -/
def Galley.headFreed (r : Galley) (rest : List LineRecord) : Galley :=
  { r with lines := rest, linesExposed := min (r.linesExposed + 1) 65535 }

section
variable {f : Film} {g : Fin 32} {r : Galley} {line : LineRecord} {rest : List LineRecord}

theorem Film.galley_of (walk : f.img.galley = some g) (hr : f.table.records[g] = some r) : f.galley = some r :=
  Option.bind_eq_some_iff.2 ⟨g, walk, hr⟩

theorem GalleyTable.freeHeadLine_eq {t : GalleyTable} (hr : t.records[g] = some r) (lines : r.lines = line :: rest) :
    t.freeHeadLine g = { t with records := t.records.set g (some (r.headFreed rest)), freeLines := t.freeLines + 1 } := by
  unfold GalleyTable.freeHeadLine
  simp only [hr, lines]
  rfl

theorem nextPlaced_of_none {l : List PlacedGlyph} (bare : ∀ e ∈ l, e.slot = none) (n : Nat) : nextPlaced l n = none := by
  induction l generalizing n with
  | nil => rfl
  | cons e l ih =>
    unfold nextPlaced
    rw [bare e List.mem_cons_self]
    exact ih (fun x m => bare x (List.mem_cons_of_mem e m)) _

theorem nextPlaced_of_some {pre post : List PlacedGlyph} {p : PlacedGlyph} {k : Fin 8} (bare : ∀ e ∈ pre, e.slot = none)
    (slot : p.slot = some k) (n : Nat) : nextPlaced (pre ++ p :: post) n = some (n + pre.length, k, p) := by
  induction pre generalizing n with
  | nil =>
    show nextPlaced (p :: post) n = _
    unfold nextPlaced
    rw [slot]
    rfl
  | cons e pre ih =>
    show nextPlaced (e :: (pre ++ p :: post)) n = _
    unfold nextPlaced
    rw [bare e List.mem_cons_self]
    dsimp only
    rw [ih fun x m => bare x (List.mem_cons_of_mem e m)]
    simp only [List.length_cons]
    congr 2
    omega

theorem Film.nextEntry_of_none (current : f.galley = some r) (lines : r.lines = line :: rest)
    (bare : ∀ e ∈ line.glyphs.drop f.img.pos, e.slot = none) : f.nextEntry = f.freeLine := by
  unfold Film.nextEntry
  simp only [current, lines, nextPlaced_of_none bare]

theorem Film.nextEntry_of_some {pre post : List PlacedGlyph} {p : PlacedGlyph} {k : Fin 8} (current : f.galley = some r)
    (lines : r.lines = line :: rest) (split : line.glyphs.drop f.img.pos = pre ++ p :: post)
    (bare : ∀ e ∈ pre, e.slot = none) (slot : p.slot = some k) :
    f.nextEntry = (f.withImg fun m => { m with pos := f.img.pos + pre.length + 1 }).takeUp k p := by
  unfold Film.nextEntry
  simp only [current, lines, split, nextPlaced_of_some bare slot]

theorem Film.freeLine_eq (walk : f.img.galley = some g) :
    f.freeLine = { f with table := f.table.freeHeadLine g }.betweenLines := by
  unfold Film.freeLine
  rw [walk]

end

/-- The ACK of an ADVANCE and of an EXPOSE GLYPH lets the walk go on to the line's next entry (R164). -/
theorem State.ackUnit_of_line {s : State} {o : Record} (out : s.imaging.out = some { record := o, void := false })
    (inLine : (∃ d, o = .advance d) ∨ ∃ n x a p z, o = .exposeGlyph n x a p z) :
    s.ackUnit = (s.putFilm s.film.nextEntry).settle := by
  rcases inLine with ⟨d, rfl⟩ | ⟨n, x, a, p, z, rfl⟩
  · rw [State.ackUnit_of_live out rfl]
    rfl
  · rw [State.ackUnit_of_live out rfl]
    rfl

/-- Settles O46: the walk goes on between two lines from the ACK of GALLEY OPEN, and from the freed head line. -/
theorem ackFreesLineAndWalkGoesOn : Obligations.AckFreesLineAndWalkGoesOn := by
  unfold Obligations.AckFreesLineAndWalkGoesOn
  intro s g r o walk hr out
  have current : s.film.galley = some r := Film.galley_of walk hr
  refine ⟨fun n l c d open_ => ?_, fun line rest inLine lines bare => ?_⟩
  · subst open_
    refine ⟨s.putFilm s.film.betweenLines, ?_, Film.betweenLines_table _, Film.betweenLines_goesOn current,
      Film.betweenLines_mirror _, rfl, rfl⟩
    rw [exec_unitAck, State.ackUnit_of_live out rfl]
    rfl
  · let f : Film := { s.film with table := s.table.freeHeadLine g }
    have freed := GalleyTable.freeHeadLine_eq hr lines
    have record : f.table.records[g] = some (r.headFreed rest) := by
      show (s.table.freeHeadLine g).records[g] = _
      rw [freed]
      exact set_same _ _ _
    have table : (s.putFilm f.betweenLines).table = s.table.freeHeadLine g := Film.betweenLines_table f
    refine ⟨s.putFilm f.betweenLines, ?_, ?_, ?_, fun h hh => ?_, ?_, Film.betweenLines_goesOn (Film.galley_of walk record), ?_,
      Film.betweenLines_mirror f, rfl, rfl⟩
    · rw [exec_unitAck, State.ackUnit_of_line out inLine, Film.nextEntry_of_none current lines bare, Film.freeLine_eq walk]
      rfl
    · rw [table]
      exact record
    · rw [table, freed]
    · rw [table, freed]
      exact set_other _ (Ne.symm hh) _
    · rw [table, freed]
    · rw [State.putFilm_imaging, Film.betweenLines_eq]
      exact walk

/-- Settles O48: KILL MARK is followed by GALLEY CLOSE, and the ACK of the close takes the galley out of the store. -/
theorem ackOfCloseEndsGalley : Obligations.AckOfCloseEndsGalley := by
  unfold Obligations.AckOfCloseEndsGalley
  refine fun s => ⟨fun out => ?_, fun g r out walk hr => ?_⟩
  · rw [exec_unitAck, State.ackUnit_of_live out rfl]
    rfl
  · have table : s.film.closeAcked.table = s.table.finish g (if r.killPending then r.outcome else .exposed) := by
      unfold Film.closeAcked
      rw [show s.film.img.galley = some g from walk]
      exact GalleyTable.closed_of_some hr
    have left := GalleyTable.finish_eq hr (if r.killPending then r.outcome else .exposed)
    refine ⟨s.putFilm s.film.closeAcked, ?_, ?_, ?_, fun h hh => ?_, ?_, rfl, rfl, rfl, rfl, rfl, rfl, rfl⟩
    · rw [exec_unitAck, State.ackUnit_of_live out rfl]
      rfl
    · rw [State.putFilm_table, table, left]
      exact set_same _ _ _
    · rw [State.putFilm_table, table, left]
    · rw [State.putFilm_table, table, left]
      exact set_other _ (Ne.symm hh) _
    · rw [State.putFilm_table, table, left]

end Sys2Proof.Machine

/-! The walk within a line: a glyph taken up by a hit or a miss in the cache mirror (R164, R166, R168, R169). -/

namespace Sys2Proof.Machine

/-! ## The exposing galley flagged (R21, R113) -/

/-- Of a table the record g changed in its flags and its mark at most. -/
structure OnlyFlags (t t' : GalleyTable) (g : Fin 32) (r q : Galley) : Prop where
  record : t'.records[g] = some q
  rest : q = { r with flags := q.flags, mark := q.mark }
  others : ∀ h : Fin 32, h ≠ g → t'.records[h] = t.records[h]
  freeLines : t'.freeLines = t.freeLines

section
variable {t : GalleyTable} {f : Film} {g : Fin 32} {r : Galley}

theorem OnlyFlags.refl (hr : t.records[g] = some r) : OnlyFlags t t g r r := ⟨hr, rfl, fun _ _ => rfl, rfl⟩

theorem OnlyFlags.raise (hr : t.records[g] = some r) (e : GalleyFlag) :
    OnlyFlags t (t.raiseFlag g e) g r (r.raiseFlag e) where
  record := GalleyTable.modify_same hr _
  rest := (r.raiseFlag_raised true e).rest
  others _ hh := t.modify_other (Ne.symm hh) _
  freeLines := by rw [GalleyTable.raiseFlag, GalleyTable.modify_eq]

theorem Galley.hasFlag_raised (r : Galley) (e : GalleyFlag) : hasFlag (r.raiseFlag e).flags e = true :=
  (r.hasFlag_raiseFlag e e).2 (.inr rfl)

theorem Film.flagImageLost_eq (walk : f.img.galley = some g) :
    f.flagImageLost = { f with table := f.table.raiseFlag g .imageLost } := by
  unfold Film.flagImageLost
  rw [walk]

/-! ## A load begun (R168, R169) -/

/-- A LOAD OUTLINE begun for a glyph of slot k: what is outstanding, the mirror, the galley's flag and the fetch. -/
structure LoadBegun (f f' : Film) (g : Fin 32) (r q : Galley) (n : Fin 64) (k : Fin 8) (glyph : Nat)
    (ws : Option (List Word)) : Prop where
  table : OnlyFlags f.table f'.table g r q
  pos : f'.img.pos = f.img.pos
  unit : f'.img.unit = .sending
  out : f'.img.out = some { record := .loadOutline n ws, void := false }
  mirror : f'.img.mirror = if f.slots[k].imageLost then markBlank f.img.mirror n else f.img.mirror
  lost : f.slots[k].imageLost = true → ws = some [] ∧ hasFlag q.flags .imageLost = true
  empty : f.slots[k].imageLost = false → (outlineOf f.slots[k] glyph).count = 0 → ws = some [] ∧ q = r
  fetched : f.slots[k].imageLost = false → (outlineOf f.slots[k] glyph).count ≠ 0 → ws = none ∧ q = r ∧
    f'.img.fetch = some { slot := k, bank := f.slots[k].bank, offset := (outlineOf f.slots[k] glyph).offset
                          count := (outlineOf f.slots[k] glyph).count }

theorem Film.beginLoad_begun (walk : f.img.galley = some g) (hr : f.table.records[g] = some r) (n : Fin 64) (k : Fin 8)
    (glyph : Nat) : ∃ q ws, LoadBegun f (f.beginLoad n k glyph) g r q n k glyph ws := by
  let sent : Film := f.send (.loadOutline n none)
  cases lost : f.slots[k].imageLost with
  | true =>
    have e : f.beginLoad n k glyph = sent.deliverBlank := if_pos lost
    have flagged : sent.deliverBlank = { f with
        table := f.table.raiseFlag g .imageLost
        img := { f.img with unit := .sending, out := some { record := .loadOutline n (some []), void := false }
                            fetch := none, buffer := [], mirror := markBlank f.img.mirror n } } := Film.flagImageLost_eq walk
    rw [e, flagged]
    exact ⟨_, _, .raise hr _, rfl, rfl, rfl, by rw [if_pos lost], fun _ => ⟨rfl, r.hasFlag_raised _⟩,
      fun h => absurd (lost.symm.trans h) (by decide),
      fun h => absurd (lost.symm.trans h) (by decide)⟩
  | false =>
    have kept : ¬ f.slots[k].imageLost = true := by rw [lost]; exact Bool.false_ne_true
    by_cases empty : (outlineOf f.slots[k] glyph).count = 0
    · have e : f.beginLoad n k glyph = sent.withImg fun m => m.deliver [] := (if_neg kept).trans (if_pos empty)
      rw [e]
      exact ⟨_, some [], .refl hr, rfl, rfl, rfl, (if_neg kept).symm, fun h => absurd h kept, fun _ _ => ⟨rfl, rfl⟩,
        fun _ h => absurd empty h⟩
    · have e : f.beginLoad n k glyph = sent.withImg fun m => { m with
          fetch := some { slot := k, bank := f.slots[k].bank, offset := (outlineOf f.slots[k] glyph).offset
                          count := (outlineOf f.slots[k] glyph).count } } := (if_neg kept).trans (if_neg empty)
      rw [e]
      exact ⟨_, none, .refl hr, rfl, rfl, rfl, (if_neg kept).symm, fun h => absurd h kept, fun _ h => absurd h empty,
        fun _ _ => ⟨rfl, rfl, rfl⟩⟩

end

/-! ## The mirror at a hit and at a miss (R166) -/

section
variable {m : List MirrorEntry} {k : Fin 8} {glyph : Nat} {e : MirrorEntry}

theorem mirrorFind_key (h : mirrorFind m k glyph = some e) : e.slot = k ∧ e.glyph = glyph := by
  have found := List.find?_some h
  simpa using found

theorem mirrorFind_none (h : mirrorFind m k glyph = none) : ∀ e ∈ m, ¬ (e.slot = k ∧ e.glyph = glyph) := by
  intro e he
  have other := List.find?_eq_none.1 h e he
  simpa using other

/-- The mirror has one entry of a key. -/
theorem MirrorSound.key_unique (h : MirrorSound m) {a b : MirrorEntry} (ha : a ∈ m) (hb : b ∈ m) (slot : a.slot = b.slot)
    (glyph : a.glyph = b.glyph) : a = b := by
  have symm : Std.Symm fun a b : MirrorEntry => ¬ (a.slot = b.slot ∧ a.glyph = b.glyph) :=
    ⟨fun a b n ⟨s, g⟩ => n ⟨s.symm, g.symm⟩⟩
  by_contra other
  exact h.keys.forall ha hb other ⟨slot, glyph⟩

theorem lowestFreeEntry_eq_some {n : Fin 64} :
    lowestFreeEntry m = some n ↔ (∀ e ∈ m, e.entry ≠ n) ∧ ∀ f < n, ∃ e ∈ m, e.entry = f := by
  unfold lowestFreeEntry
  rw [find?_rising entryIds_rising mem_entryIds]
  simp

theorem lowestFreeEntry_eq_none : lowestFreeEntry m = none ↔ ∀ f : Fin 64, ∃ e ∈ m, e.entry = f := by
  unfold lowestFreeEntry
  rw [List.find?_eq_none]
  simp [mem_entryIds]

theorem chooseEntry_of_free {f : Fin 64} (free : ∀ e ∈ m, e.entry ≠ f) :
    (chooseEntry m).2 = m ∧ (chooseEntry m).1 ≤ f ∧ ∀ e ∈ m, e.entry ≠ (chooseEntry m).1 := by
  unfold chooseEntry
  cases lowest : lowestFreeEntry m with
  | none =>
    obtain ⟨e, he, same⟩ := lowestFreeEntry_eq_none.1 lowest f
    exact absurd same (free e he)
  | some n =>
    obtain ⟨unused, below⟩ := lowestFreeEntry_eq_some.1 lowest
    refine ⟨rfl, ?_, unused⟩
    by_contra less
    obtain ⟨e, he, same⟩ := below f (lt_of_not_ge less)
    exact free e he same

theorem chooseEntry_of_full (full : ∀ f : Fin 64, ∃ e ∈ m, e.entry = f) :
    ∃ e, m = e :: (chooseEntry m).2 ∧ (chooseEntry m).1 = e.entry := by
  unfold chooseEntry
  rw [lowestFreeEntry_eq_none.2 full]
  cases m with
  | nil =>
    obtain ⟨e, he, -⟩ := full 0
    cases he
  | cons e rest => exact ⟨e, rfl, rfl⟩

/-- The blank-by-loss mark on the newest entry, no other being of its unit entry. -/
theorem markBlank_concat {kept : List MirrorEntry} {n : Fin 64} (other : ∀ a ∈ kept, a.entry ≠ n) (slot : Fin 8)
    (blank : Bool) :
    markBlank (kept ++ [{ entry := n, slot := slot, glyph := glyph, blank := blank }]) n =
      kept ++ [{ entry := n, slot := slot, glyph := glyph, blank := true }] := by
  unfold markBlank
  rw [List.map_append, List.map_congr_left (g := fun a => a) fun a ha => if_neg (other a ha)]
  simp

end

/-! ## A glyph taken up (R166) -/

section
variable {f : Film} {k : Fin 8} {p : PlacedGlyph} {e : MirrorEntry} {g : Fin 32} {r : Galley}

/-- The Exposure Controller with a glyph exposed from an entry of the mirror, which becomes most recent (R166). -/
def Imaging.hit (m : Imaging) (e : MirrorEntry) (p : PlacedGlyph) : Imaging :=
  { m with mirror := mirrorTouch m.mirror e, unit := .sending
           out := some { record := exposeRecord e.entry p, void := false } }

theorem Film.takeUp_of_hit (found : mirrorFind f.img.mirror k p.glyph = some e) (walk : f.img.galley = some g) :
    f.takeUp k p =
      { f with table := if e.blank then f.table.raiseFlag g .imageLost else f.table, img := f.img.hit e p } := by
  unfold Film.takeUp
  rw [found]
  dsimp only
  cases blank : e.blank with
  | false => rfl
  | true =>
    rw [if_pos rfl, if_pos rfl, Film.flagImageLost_eq (f := f.withImg fun m => { m with mirror := mirrorTouch m.mirror e }) walk]
    rfl

/-- The film with the mirror entry of a miss made (R166). -/
def Film.missed (f : Film) (k : Fin 8) (p : PlacedGlyph) : Film :=
  f.withImg fun m => { m with mirror := (chooseEntry m.mirror).2 ++
    [{ entry := (chooseEntry m.mirror).1, slot := k, glyph := p.glyph, blank := false }] }

theorem Film.takeUp_of_miss (h : mirrorFind f.img.mirror k p.glyph = none) :
    f.takeUp k p = (f.missed k p).beginLoad (chooseEntry f.img.mirror).1 k p.glyph := by
  unfold Film.takeUp
  rw [h]
  rfl

end

/-- The ACK of a LOAD OUTLINE sent whole exposes the glyph it was loaded for (R166). -/
theorem State.ackUnit_of_loaded {s : State} {g : Fin 32} {r : Galley} {line : LineRecord} {rest : List LineRecord}
    {n : Fin 64} {ws : List Word} {p : PlacedGlyph} (walk : s.imaging.galley = some g) (hr : s.table.records[g] = some r)
    (lines : r.lines = line :: rest) (out : s.imaging.out = some { record := .loadOutline n (some ws), void := false })
    (placed : line.glyphs[s.imaging.pos - 1]? = some p) :
    s.ackUnit = (s.putFilm (s.film.send (exposeRecord n p))).settle := by
  have exposed : s.film.acked (.loadOutline n (some ws)) = s.film.send (exposeRecord n p) := by
    show s.film.exposeLoaded n = _
    unfold Film.exposeLoaded
    simp only [Film.galley_of (f := s.film) walk hr, lines]
    rw [show line.glyphs[s.film.img.pos - 1]? = some p from placed]
  rw [State.ackUnit_of_live out rfl, exposed]

/-- Settles O47: by whether the mirror has the glyph, and at a miss by what there is to load. -/
theorem walkTakesUpTheNextGlyph : Obligations.WalkTakesUpTheNextGlyph := by
  unfold Obligations.WalkTakesUpTheNextGlyph
  intro s g r line rest o walk hr lines out sound
  refine ⟨fun n ws p load placed => ?_, fun pre post p k inLine split bare slot => ?_⟩
  · subst load
    rw [exec_unitAck, State.ackUnit_of_loaded walk hr lines out placed]
    rfl
  · let f : Film := s.film.withImg fun m => { m with pos := s.imaging.pos + pre.length + 1 }
    have acked : exec .unitAck s = .next (s.putFilm (f.takeUp k p)).settle := by
      rw [exec_unitAck, State.ackUnit_of_line out inLine,
        Film.nextEntry_of_some (Film.galley_of (f := s.film) walk hr) lines split bare slot]
      rfl
    cases found : mirrorFind s.imaging.mirror k p.glyph with
    | some e =>
      have he := mirrorFind_mem found
      obtain ⟨slotE, glyphE⟩ := mirrorFind_key found
      rw [Film.takeUp_of_hit (f := f) found walk] at acked
      have one (a : MirrorEntry) (ha : a ∈ s.imaging.mirror) (hs : a.slot = k) (hg : a.glyph = p.glyph) : a = e :=
        sound.key_unique ha he (hs.trans slotE.symm) (hg.trans glyphE.symm)
      have noMiss (h : ∀ a ∈ s.imaging.mirror, ¬ (a.slot = k ∧ a.glyph = p.glyph)) : False := h e he ⟨slotE, glyphE⟩
      cases blank : e.blank with
      | true =>
        rw [blank, if_pos rfl] at acked
        have flagged := OnlyFlags.raise hr .imageLost
        refine ⟨_, _, acked, rfl, rfl, flagged.record, flagged.rest, flagged.others, flagged.freeLines, rfl, rfl,
          fun a ha hs hg => ?_, fun h => (noMiss h).elim⟩
        rw [one a ha hs hg, blank]
        exact ⟨rfl, rfl, fun _ => r.hasFlag_raised _, fun h => by cases h⟩
      | false =>
        rw [blank, if_neg Bool.false_ne_true] at acked
        refine ⟨_, r, acked, rfl, rfl, hr, rfl, fun _ _ => rfl, rfl, rfl, rfl, fun a ha hs hg => ?_, fun h => (noMiss h).elim⟩
        rw [one a ha hs hg, blank]
        exact ⟨rfl, rfl, fun h => (by cases h), fun _ => rfl⟩
    | none =>
      rw [Film.takeUp_of_miss (f := f) found] at acked
      obtain ⟨q, ws, load⟩ := Film.beginLoad_begun (f := f.missed k p) walk hr (chooseEntry s.imaging.mirror).1 k p.glyph
      refine ⟨_, q, acked, load.pos, load.unit, load.table.record, load.table.rest, load.table.others, load.table.freeLines,
        rfl, rfl, fun a ha hs hg => absurd ⟨hs, hg⟩ (mirrorFind_none found a ha), fun _ => ?_⟩
      refine ⟨(chooseEntry s.imaging.mirror).1, (chooseEntry s.imaging.mirror).2, ws, load.mirror.trans ?_, load.out,
        fun _ free => chooseEntry_of_free free, fun full => chooseEntry_of_full full, load.lost, load.empty, load.fetched⟩
      show (if s.slots[k].imageLost then markBlank ((chooseEntry s.imaging.mirror).2 ++ [_]) _ else _) = _
      cases lost : s.slots[k].imageLost with
      | true => exact markBlank_concat (chooseEntry_entry sound) k false
      | false => rfl

end Sys2Proof.Machine

/-! The library's commands taken whole in READY: fonts, store commands, class list, links, the unit and the attention causes (R5,
R7, R11, R32, R140, R154 to R156, R159, R172). -/

namespace Sys2Proof.Machine

/-! ## A whole command in READY (R154) -/

section
variable {s : State}

theorem State.offer_of_ready (ready : s.port.phase = .ready) {c : LibCommand} (whole : c.complete = true) :
    s.offer c = act c s := by
  unfold State.offer
  rw [ready]
  exact if_pos whole

/-- A library command whose operands agree acts in READY. -/
theorem exec_of_ready (ready : s.port.phase = .ready) {c : LibCommand} (whole : c.complete = true) :
    exec c.instr s = .next (act c s) := by rw [c.exec_instr, State.offer_of_ready ready whole]

/-- The causes other than STORE STALLED are as the event left them before its reactions. -/
theorem State.settle_installFailed (s : State) : s.settle.attention.installFailed = s.attention.installFailed := by
  rw [s.settle_attention]

theorem State.settle_installDone (s : State) : s.settle.attention.installDone = s.attention.installDone := by
  rw [s.settle_attention]

end

/-! ## The slots of the directory -/

section
variable {slots : Vector Slot 8} {i : Fin 8} {n : Nat} {p : Fin 8}

theorem slotIds_rising : slotIds.Pairwise (· < ·) := by decide

theorem anyLoading_eq_true : anyLoading slots = true ↔ ∃ i : Fin 8, slots[i].state = .loading := by
  unfold anyLoading
  rw [List.any_eq_true]
  exact ⟨fun ⟨i, _, h⟩ => ⟨i, of_decide_eq_true h⟩, fun ⟨i, h⟩ => ⟨i, mem_slotIds i, decide_eq_true h⟩⟩

theorem anyLoading_eq_false : anyLoading slots = false ↔ ∀ i : Fin 8, slots[i].state ≠ .loading := by
  rw [← Bool.not_eq_true, anyLoading_eq_true, not_exists]

theorem lowestEmpty_eq_some :
    lowestEmpty slots = some i ↔ slots[i].state = .empty ∧ ∀ j : Fin 8, j < i → slots[j].state ≠ .empty := by
  unfold lowestEmpty
  rw [find?_rising slotIds_rising mem_slotIds]
  simp only [decide_eq_true_eq, decide_eq_false_iff_not]

theorem lowestEmpty_eq_none : lowestEmpty slots = none ↔ ∀ i : Fin 8, slots[i].state ≠ .empty := by
  unfold lowestEmpty
  rw [List.find?_eq_none]
  exact ⟨fun h i e => h i (mem_slotIds i) (decide_eq_true e), fun h i _ e => h i (of_decide_eq_true e)⟩

theorem bankNumber_val (h : n = p.val) : bankNumber n = some p := by
  subst h
  exact dif_pos p.isLt

theorem bankNumber_of_high (h : 7 < n) : bankNumber n = none := dif_neg (by omega)

theorem guarded_eq_true :
    guarded slots p = true ↔ ∃ i : Fin 8, slots[i].state ≠ .empty ∧ slots[i].bank = p.val := by
  unfold guarded
  rw [List.any_eq_true]
  simp only [Bool.and_eq_true, decide_eq_true_eq]
  exact ⟨fun ⟨i, _, h⟩ => ⟨i, h⟩, fun ⟨i, h⟩ => ⟨i, mem_slotIds i, h⟩⟩

theorem fontNumberOk_iff : fontNumberOk n = true ↔ 1 ≤ n ∧ n ≤ 255 := by simp [fontNumberOk]

theorem resolveResident_none (h : ∀ i : Fin 8, ¬ (slots[i].state = .resident ∧ slots[i].fontNumber = n)) :
    resolveResident slots n = none := by
  unfold resolveResident
  split
  · rw [List.find?_eq_none]
    intro i _ e
    simp only [Bool.and_eq_true, decide_eq_true_eq] at e
    exact h i e
  · rfl

theorem resolveResident_one (ok : 1 ≤ n ∧ n ≤ 255) (state : slots[i].state = .resident) (font : slots[i].fontNumber = n)
    (one : ∀ j : Fin 8, slots[j].state = .resident → slots[j].fontNumber = n → j = i) :
    resolveResident slots n = some i := by
  unfold resolveResident
  rw [if_pos (fontNumberOk_iff.2 ok), find?_rising slotIds_rising mem_slotIds]
  simp only [Bool.and_eq_true, decide_eq_true_eq, Bool.eq_false_iff, ne_eq]
  exact ⟨⟨state, font⟩, fun j less ⟨s, f⟩ => absurd (one j s f ▸ less) (lt_irrefl _)⟩

end

/-! ## Fonts (R5, R7, R11) -/

/-- The record of a slot whose image is being copied (R5). -/
def loadingSlot (bank offset : Nat) : Slot := { emptySlotRecord with state := .loading, bank := bank, offset := offset }

section
variable {s : State} {i p : Fin 8} {bank : Word} {offset : BitVec 32}

theorem State.startCopy_of_present {b o : Nat} (named : b = p.val) (present : s.banks[p].present = true) :
    s.startCopy i b o = { s with slots := s.slots.set i (loadingSlot b o)
                                 copy := some { slot := i, header := [], prot := s.banks[p].prot } } := by
  unfold State.startCopy
  rw [bankNumber_val named]
  exact if_pos present

/-- The copy fails at its start: no position is named, or none present (R7 check 1). -/
theorem State.startCopy_of_absent {b o : Nat}
    (absent : 7 < b ∨ ∃ p : Fin 8, b = p.val ∧ s.banks[p].present = false) :
    s.startCopy i b o = ({ s with slots := s.slots.set i (loadingSlot b o) } : State).failCopy i .outOfBank := by
  unfold State.startCopy
  rcases absent with high | ⟨p, named, absent⟩
  · rw [bankNumber_of_high high]
    rfl
  · rw [bankNumber_val named]
    exact if_neg (by rw [absent]; exact Bool.false_ne_true)

/-- INSTALL_FONT in READY with a slot free and no copy in progress (R5). -/
theorem exec_installFont (ready : s.port.phase = .ready) (idle : ∀ j : Fin 8, s.slots[j].state ≠ .loading)
    (empty : s.slots[i].state = .empty) (lowest : ∀ j : Fin 8, j < i → s.slots[j].state ≠ .empty) :
    exec (.installFont bank offset) s =
      .next ((s.startCopy i bank.toNat offset.toNat).respond startedResponse).settle := by
  have taken : exec (.installFont bank offset) s = .next (actInstallFont bank offset s) :=
    exec_of_ready (c := .installFont bank offset) ready rfl
  rw [taken]
  unfold actInstallFont
  rw [if_neg (by rw [anyLoading_eq_false.2 idle]; exact Bool.false_ne_true), lowestEmpty_eq_some.2 ⟨empty, lowest⟩]

end

/-- Settles O6: by whether a slot is LOADING and whether one is EMPTY. -/
theorem installFontStartsOneCopy : Obligations.InstallFontStartsOneCopy := by
  unfold Obligations.InstallFontStartsOneCopy
  intro s bank offset ready
  have taken : exec (.installFont bank offset) s = .next (actInstallFont bank offset s) :=
    exec_of_ready (c := .installFont bank offset) ready rfl
  refine ⟨fun busy => ?_, fun full => ?_, fun i p idle empty lowest named present => ?_⟩
  · rw [taken]
    unfold actInstallFont
    rw [if_pos (anyLoading_eq_true.2 busy)]
    rfl
  · rw [taken]
    unfold actInstallFont
    rw [if_neg (by rw [anyLoading_eq_false.2 fun j => (full j).1]; exact Bool.false_ne_true),
      lowestEmpty_eq_none.2 fun j => (full j).2]
    rfl
  · refine ⟨_, exec_installFont ready idle empty lowest, ?_⟩
    rw [State.startCopy_of_present named present]
    have slots : (s.slots.set i (loadingSlot bank.toNat offset.toNat)) =
        s.slots.set i { emptySlotRecord with state := .loading, bank := p.val, offset := offset.toNat } := by
      rw [named]
      rfl
    refine ⟨by rw [State.settle_port]; rfl, by rw [State.settle_slots]; exact slots, by rw [State.settle_copy]; rfl, ?_,
      by rw [State.settle_classes]; rfl, by rw [State.settle_banks]; rfl, by rw [State.settle_installFailed]; rfl⟩
    rw [State.settle_slots]
    refine guarded_eq_true.2 ⟨i, ?_, ?_⟩
    · show (s.slots.set i _)[i].state ≠ _
      rw [set_same]
      exact fun e => by cases e
    · show (s.slots.set i _)[i].bank = _
      rw [set_same]
      exact named

theorem State.withdraw_slots_eq (s : State) (i : Fin 8) :
    (s.withdraw i).slots =
      s.slots.set i (if s.slots[i].refCount = 0 then emptySlotRecord else { s.slots[i] with state := .retiring }) := by
  unfold State.withdraw
  split <;> rfl

/-- Settles O10: the number resolves to the one slot that is RESIDENT with it, which is withdrawn. -/
theorem retireFontWithdrawsOneSlot : Obligations.RetireFontWithdrawsOneSlot := by
  unfold Obligations.RetireFontWithdrawsOneSlot
  intro s font ready
  have taken : exec (.retireFont font) s = .next (actRetireFont font s) :=
    exec_of_ready (c := .retireFont font) ready rfl
  refine ⟨fun none => ?_, fun i low high state number one => ?_⟩
  · rw [taken]
    unfold actRetireFont
    rw [resolveResident_none none]
    rfl
  · refine ⟨((s.withdraw i).respond doneResponse).settle, ?_, ?_, ?_, ?_, ?_, ?_⟩
    · rw [taken]
      unfold actRetireFont
      rw [resolveResident_one ⟨low, high⟩ state number one]
    · rw [State.settle_port]; rfl
    · rw [State.settle_slots]; exact s.withdraw_slots_eq i
    · rw [State.settle_copy, State.respond_copy, State.withdraw_eq]
    · rw [State.settle_classes, State.respond_classes, State.withdraw_eq]
    · rw [State.settle_banks, State.respond_banks, State.withdraw_eq]

/-! ## Store commands (R155, R156) -/

theorem storeCountOk_iff (count : Word) : storeCountOk count = true ↔ 1 ≤ count.toNat ∧ count.toNat ≤ 64 := by
  simp [storeCountOk]

theorem writeEndsAtCount_iff (bank count : Word) :
    writeEndsAtCount bank count = true ↔ 7 < bank.toNat ∨ count.toNat = 0 ∨ 64 < count.toNat := by
  simp [writeEndsAtCount, or_assoc]

section
variable {s : State} {p : Fin 8} {bank count : Word} {offset : BitVec 32} {words : List Word}

/-- A place that READ STORE and WRITE STORE refuse (R155, R156). -/
def badPlace (bank : Word) (offset : BitVec 32) (count : Word) : Prop :=
  7 < bank.toNat ∨ ¬ (storeCountOk count = true ∧ offset.toNat + count.toNat ≤ Config.bankWords)

theorem actReadStore_of_bad (bad : badPlace bank offset count) :
    actReadStore bank offset count s = s.respond [0x0404#16] := by
  unfold actReadStore
  split
  · rfl
  · next b hb =>
    rcases bad with high | bad
    · rw [bankNumber_of_high high] at hb
      cases hb
    · rw [if_neg bad]
      rfl

theorem actWriteStore_of_bad (bad : badPlace bank offset count) :
    actWriteStore bank offset count words s = s.respond [0x0404#16] := by
  unfold actWriteStore
  split
  · rfl
  · next b hb =>
    rcases bad with high | bad
    · rw [bankNumber_of_high high] at hb
      cases hb
    · rw [if_neg bad]
      rfl

theorem complete_writeStore_eq (bank : Word) (offset : BitVec 32) (count : Word) (words : List Word) :
    (LibCommand.writeStore bank offset count words).complete =
      if writeEndsAtCount bank count then words.isEmpty else decide (words.length = count.toNat) := rfl

theorem complete_writeStore (ends : writeEndsAtCount bank count = false) (length : words.length = count.toNat) :
    (LibCommand.writeStore bank offset count words).complete = true := by
  rw [complete_writeStore_eq, ends]
  exact decide_eq_true length

theorem complete_writeStore_nil (ends : writeEndsAtCount bank count = true) :
    (LibCommand.writeStore bank offset count []).complete = true := by
  rw [complete_writeStore_eq, ends]
  rfl

end

/-- Settles O11: the place is checked before the port waits for the bus. -/
theorem storeCommandsCheckTheirPlace : Obligations.StoreCommandsCheckTheirPlace := by
  unfold Obligations.StoreCommandsCheckTheirPlace
  intro s bank offset count words ready
  have read : exec (.readStore bank offset count) s = .next (actReadStore bank offset count s) :=
    exec_of_ready (c := .readStore bank offset count) ready rfl
  have write (ws : List Word) (whole : (LibCommand.writeStore bank offset count ws).complete = true) :
      exec (.writeStore bank offset count ws) s = .next (actWriteStore bank offset count ws s) :=
    exec_of_ready (c := .writeStore bank offset count ws) ready whole
  have goesOn (b : bank.toNat ≤ 7) (low : 1 ≤ count.toNat) (high : count.toNat ≤ 64) :
      writeEndsAtCount bank count = false := by
    rw [← Bool.not_eq_true, writeEndsAtCount_iff]
    omega
  refine ⟨fun p named low high inBank => ⟨?_, fun length => ?_⟩, fun out => ?_, fun bankOk low high past => ?_⟩
  · refine ⟨(s.startStore (.read p offset.toNat count.toNat)).settle, ?_, ?_, ?_, ?_⟩
    · rw [read]
      unfold actReadStore
      rw [bankNumber_val named]
      exact congrArg _ (if_pos ⟨(storeCountOk_iff count).2 ⟨low, high⟩, inBank⟩)
    · rw [State.settle_port]; rfl
    · rw [State.settle_slots]; rfl
    · rw [State.settle_banks]; rfl
  · refine ⟨(s.startStore (.write p offset.toNat words)).settle, ?_, ?_, ?_, ?_⟩
    · rw [write words (complete_writeStore (goesOn (by omega) low high) length)]
      unfold actWriteStore
      rw [bankNumber_val named]
      refine congrArg _ ((if_pos ⟨(storeCountOk_iff count).2 ⟨low, high⟩, inBank⟩).trans ?_)
      rw [← length, List.take_length]
    · rw [State.settle_port]; rfl
    · rw [State.settle_slots]; rfl
    · rw [State.settle_banks]; rfl
  · have bad : badPlace bank offset count := by
      unfold badPlace
      rw [storeCountOk_iff]
      omega
    rw [read, write [] (complete_writeStore_nil ((writeEndsAtCount_iff bank count).2 out)), actReadStore_of_bad bad,
      actWriteStore_of_bad bad]
    exact ⟨rfl, rfl⟩
  · have bad : badPlace bank offset count := .inr fun h => Nat.not_lt.2 h.2 past
    refine ⟨?_, fun length => ?_⟩
    · rw [read, actReadStore_of_bad bad]
    · rw [write words (complete_writeStore (goesOn bankOk low high) length), actWriteStore_of_bad bad]

/-! ## Class list (R32) -/

theorem complete_loadClassList (count : Word) (entries : List ClassWords) :
    (LibCommand.loadClassList count entries).complete =
      if 48 < count.toNat then entries.isEmpty else decide (entries.length = count.toNat) := rfl

theorem readClassList_eq_some {entries : List ClassWords} {list : List ClassEntry}
    (h : entries.map readEntry = list.map some) : readClassList entries = some list := by
  induction entries generalizing list with
  | nil => cases list with
    | nil => rfl
    | cons e es => cases h
  | cons c cs ih => cases list with
    | nil => cases h
    | cons e es =>
      rw [List.map_cons, List.map_cons] at h
      injection h with head tail
      unfold readClassList
      rw [head, ih tail]

theorem readClassList_eq_none {entries : List ClassWords} (h : ∃ e ∈ entries, readEntry e = none) :
    readClassList entries = none := by
  induction entries with
  | nil =>
    obtain ⟨e, he, -⟩ := h
    cases he
  | cons c cs ih =>
    unfold readClassList
    obtain ⟨e, he, bad⟩ := h
    rcases List.mem_cons.1 he with rfl | he
    · rw [bad]
    · rw [ih ⟨e, he, bad⟩]
      cases readEntry c <;> rfl

theorem dirOf_isSome : ∀ n, (dirOf n).isSome = true ↔ n ≤ 4
  | 0 | 1 | 2 | 3 | 4 => by simp [dirOf]
  | n + 5 => by simp [dirOf]

theorem joinOf_isSome : ∀ n, (joinOf n).isSome = true ↔ n ≤ 4
  | 0 | 1 | 2 | 3 | 4 => by simp [joinOf]
  | n + 5 => by simp [joinOf]

theorem breakOf_isSome : ∀ n, (breakOf n).isSome = true ↔ n ≤ 1
  | 0 | 1 => by simp [breakOf]
  | n + 2 => by simp [breakOf]

/-- An entry's words pass the checks of R32. -/
theorem readEntry_isSome (c : ClassWords) : (readEntry c).isSome = true ↔
    (hiByte c.rankWord).toNat ≤ 3 ∧ (loByte c.rankWord).toNat ≤ 15 ∧ c.kindWord.toNat / 4096 ≤ 4 ∧
      c.kindWord.toNat / 256 % 16 ≤ 4 ∧ c.kindWord.toNat % 256 ≤ 1 := by
  rw [← dirOf_isSome, ← joinOf_isSome, ← breakOf_isSome]
  unfold readEntry
  cases dirOf (c.kindWord.toNat / 4096) with
  | none => simp
  | some d =>
    cases joinOf (c.kindWord.toNat / 256 % 16) with
    | none => simp
    | some j =>
      cases breakOf (c.kindWord.toNat % 256) with
      | none => simp
      | some b =>
        dsimp only
        split
        · next ok => simp [ok]
        · next bad =>
          simp only [Option.isSome_none, Option.isSome_some, Bool.false_eq_true, and_true, false_iff]
          exact bad

/-- Settles O19: the list is read whole before it replaces the old one. -/
theorem classListIsReplacedWhole : Obligations.ClassListIsReplacedWhole := by
  unfold Obligations.ClassListIsReplacedWhole
  intro s count entries ready
  have taken (es : List ClassWords) (whole : (LibCommand.loadClassList count es).complete = true) :
      exec (.loadClassList count es) s = .next (actLoadClassList count es s) :=
    exec_of_ready (c := .loadClassList count es) ready whole
  have whole (few : count.toNat ≤ 48) (length : entries.length = count.toNat) :
      (LibCommand.loadClassList count entries).complete = true := by
    rw [complete_loadClassList, if_neg (Nat.not_lt.2 few)]
    exact decide_eq_true length
  have listed (few : count.toNat ≤ 48) : ¬ classListMax < count.toNat := Nat.not_lt.2 few
  refine ⟨fun list few length reads => ?_, fun few length bad => ?_, fun many => ?_, readEntry_isSome⟩
  · rw [taken entries (whole few length)]
    unfold actLoadClassList
    rw [if_neg (listed few), readClassList_eq_some reads]
    rfl
  · rw [taken entries (whole few length)]
    unfold actLoadClassList
    rw [if_neg (listed few), readClassList_eq_none bad]
    rfl
  · rw [taken [] (by rw [complete_loadClassList, if_pos many]; rfl)]
    unfold actLoadClassList
    rw [if_pos (show classListMax < count.toNat from many)]
    rfl

/-! ## Links (R140) -/

theorem linkNumber_val {n : Nat} {i : Fin 4} (h : n = i.val) : linkNumber n = some i := by
  subst h
  exact dif_pos i.isLt

theorem linkNumber_of_high {n : Nat} (h : 3 < n) : linkNumber n = none := dif_neg (by omega)

/-- SET LINK's choices on a receiver, field by field (R136, R140). -/
structure Controlled (rx rx' : Receiver) (r : Rate) (enable clear : Bool) : Prop where
  rate : rx'.rate = r
  ring : rx'.ring = rx.ring
  drop : rx'.drop = rx.drop
  stray : rx'.stray = if clear then 0 else rx.stray
  recv : rx'.recv = if enable then
      (if rx.recv = .disabled then (if rx.discardPending then .discard else .receiving) else rx.recv) else .disabled
  readyOut : rx'.readyOut = if enable then
      (if rx.recv = .disabled then decide (rx.ring.length ≤ 96) else rx.readyOut)
    else (if rx.recv = .disabled then rx.readyOut else false)
  pair : rx'.pair = if enable = decide (rx.recv = .disabled) then .highNext else rx.pair
  discardPending : rx'.discardPending = if enable = false ∧ rx.recv ≠ .disabled then decide (rx.recv = .discard)
    else rx.discardPending

theorem Receiver.control_controlled (rx : Receiver) (r : Rate) (enable clear : Bool) :
    Controlled rx (rx.control r enable clear) r enable clear := by
  unfold Receiver.control Receiver.enable Receiver.disable
  by_cases off : rx.recv = .disabled
  · have at96 : Config.readyOnAt = 96 := rfl
    cases enable <;> cases clear <;> constructor <;> simp [off, at96]
  · cases enable <;> cases clear <;> constructor <;> simp [off]

theorem actSetLink_of_bad {s : State} {link rate enable stray : Word}
    (bad : 3 < link.toNat ∨ rateOf rate = none ∨ 1 < enable.toNat ∨ 1 < stray.toNat) :
    actSetLink link rate enable stray s = s.respond [0x0404#16] := by
  unfold actSetLink
  split
  · next i r hi hr =>
    refine (if_neg fun ok => ?_).trans rfl
    rcases bad with high | noRate | choice | choice
    · rw [linkNumber_of_high high] at hi
      cases hi
    · rw [noRate] at hr
      cases hr
    · exact absurd ok.1 (Nat.not_le.2 choice)
    · exact absurd ok.2 (Nat.not_le.2 choice)
  · rfl

theorem word_eq_one_iff (w : Word) : w = 1#16 ↔ w.toNat = 1 :=
  ⟨fun h => by rw [h]; rfl, fun h => BitVec.eq_of_toNat_eq h⟩

/-- Settles O21: the receiver named takes the choices and every other part of the links stays. -/
theorem setLinkControlsOneReceiver : Obligations.SetLinkControlsOneReceiver := by
  unfold Obligations.SetLinkControlsOneReceiver
  intro s link rate enable stray ready
  have taken : exec (.setLink link rate enable stray) s = .next (actSetLink link rate enable stray s) :=
    exec_of_ready (c := .setLink link rate enable stray) ready rfl
  refine ⟨fun i r named listed enableOk strayOk => ?_, fun bad => ?_⟩
  · let choose (l : Link) : Link := { l with rx := l.rx.control r (enable = 1#16) (stray = 1#16) }
    refine ⟨{ s with links := modifyAt s.links i choose }.respond doneResponse, ?_, rfl,
      fun j other => modifyAt_other s.links (Ne.symm other) choose, ?_, ?_, ?_, ?_, rfl, rfl, rfl⟩
    · rw [taken]
      unfold actSetLink
      rw [linkNumber_val named, listed]
      exact congrArg _ (if_pos ⟨enableOk, strayOk⟩)
    all_goals rw [State.respond_links, modifyAt_same]
    have c := s.links[i].rx.control_controlled r (enable = 1#16) (stray = 1#16)
    have enabled : (enable.toNat = 0 ↔ ¬ enable.toNat = 1) := by omega
    refine ⟨c.rate, c.ring, c.drop, ?_, ?_, ?_, ?_, ?_⟩
    · rw [show (choose s.links[i]).rx.stray = _ from c.stray]
      simp only [decide_eq_true_eq, word_eq_one_iff]
    · rw [show (choose s.links[i]).rx.recv = _ from c.recv]
      simp only [decide_eq_true_eq, word_eq_one_iff]
    · rw [show (choose s.links[i]).rx.readyOut = _ from c.readyOut]
      simp only [decide_eq_true_eq, word_eq_one_iff]
    · rw [show (choose s.links[i]).rx.pair = _ from c.pair]
      simp only [decide_eq_decide, word_eq_one_iff]
    · rw [show (choose s.links[i]).rx.discardPending = _ from c.discardPending]
      simp only [decide_eq_false_iff_not, word_eq_one_iff, enabled]
  · rw [taken, actSetLink_of_bad bad]

/-! ## The unit and the attention causes (R159, R172) -/

/-- The reactions clear no cause (R129, R158). -/
theorem State.settle_storeStalled (s : State) (h : s.attention.storeStalled = true) :
    s.settle.attention.storeStalled = true := by
  have replied : s.wakeWalk.selectionRound.giveBus.replies.attention = s.attention := by
    rw [State.replies_eq, State.giveBus_eq, State.selectionRound_eq, State.wakeWalk_eq]
  unfold State.settle State.noticeStall
  dsimp only
  split
  · rfl
  · rw [replied]
    exact h

/-- Settles O25: the unit leaves FAULT for SENDING or OFFLINE, where the reactions find nothing to do for it. -/
theorem clearUnitLeavesFault : Obligations.ClearUnitLeavesFault := by
  unfold Obligations.ClearUnitLeavesFault
  intro s ready
  have taken : exec .clearUnit s = .next (actClearUnit s) := exec_of_ready (c := .clearUnit) ready rfl
  refine ⟨fun fault u hu => ?_, fun noFault => ?_⟩
  · have imaging : u.settle.imaging = u.imaging := by
      apply State.settle_imaging_same
      all_goals rw [hu]; dsimp only; split <;> exact fun e => by cases e
    refine ⟨?_, imaging, ?_, fun stalled => u.settle_storeStalled (by rw [hu]; exact stalled)⟩
    · rw [taken, hu]
      unfold actClearUnit
      rw [if_pos fault]
      rfl
    · rw [State.settle_attention, hu]
  · rw [taken]
    unfold actClearUnit
    rw [if_neg noFault]
    rfl

/-- Settles O27: each bit of the word clears one cause. -/
theorem acknowledgeClearsNamedCauses : Obligations.AcknowledgeClearsNamedCauses := by
  unfold Obligations.AcknowledgeClearsNamedCauses
  intro s causes ready
  refine ⟨_, exec_of_ready (c := .acknowledgeAttention causes) ready rfl, rfl, rfl, rfl, rfl, rfl, rfl, rfl, rfl, rfl, ?_,
    rfl, rfl, rfl, rfl, rfl⟩
  intro all
  have named (k : Nat) (hk : k < 8) : causes.getLsbD k = true := by
    have low : causes.toNat.testBit k = (causes.toNat % 2 ^ 8).testBit k := by rw [Nat.testBit_mod_two_pow, decide_eq_true hk, Bool.true_and]
    rw [BitVec.getLsbD, low, show (2 : Nat) ^ 8 = 256 from rfl, all]
    exact (by decide : ∀ n < 8, Nat.testBit 255 n = true) k hk
  have none : s.attention.acknowledge causes = noAttention := by
    unfold Attention.acknowledge
    rw [named 0 (by decide), named 1 (by decide), named 2 (by decide), named 3 (by decide), named 4 (by decide),
      named 5 (by decide), named 6 (by decide), named 7 (by decide)]
    rfl
  show (s.attention.acknowledge causes).line = false
  rw [none]
  decide

end Sys2Proof.Machine

/-! The install copy read by read: its header, its tables, its end by failure or by completion (R6 to R9; 11.5). -/

namespace Sys2Proof.Machine

/-! ## A read of the copy (R6, R151) -/

section
variable {s : State} {job : CopyJob} {p : Fin 8} {h : List Word}

/-- INSTALL_COPY_READ by a copy that holds the bus. -/
theorem exec_copyRead (copy : s.copy = some job) (bus : s.bus.holder = some .copy) :
    exec .installCopyRead s = .next (s.endUnit.copyRead job).settle := by
  rw [exec_installCopyRead]
  unfold State.copyStep
  rw [copy]
  exact congrArg _ (if_pos bus)

theorem State.failCopy_fails {u : State} {r : InstallReason} (slots : u.slots.set job.slot emptySlotRecord =
      s.slots.set job.slot emptySlotRecord) (banks : u.banks = s.banks) (classes : u.classes = s.classes)
    (port : u.port = s.port) : CopyFails s (u.failCopy job.slot r).settle job r := by
  refine ⟨?_, ?_, ?_, ?_, ?_, ?_⟩
  · rw [State.settle_copy]; rfl
  · rw [State.settle_slots]; exact slots
  · rw [State.settle_installFailed]; rfl
  · rw [State.settle_banks]; exact banks
  · rw [State.settle_classes]; exact classes
  · rw [State.settle_port]; exact port

/-- The word that the copy reads within the bank (R6, R148). -/
theorem State.imageWord_of_inBank {slot : Slot} {n : Nat} (inBank : slot.offset + n < Config.bankWords) :
    s.imageWord slot p n = trueRead s.banks[p] (slot.offset + n) := if_pos inBank

theorem State.headerRead_eq (inBank : s.slots[job.slot].offset + job.header.length < Config.bankWords)
    (hh : h = job.header ++ [trueRead s.banks[p] (s.slots[job.slot].offset + job.header.length)]) :
    s.headerRead job p = { job with header := h } := by
  unfold State.headerRead
  rw [State.imageWord_of_inBank inBank, hh]

/-- The slot's record filled from its header (R6). -/
def Slot.withHeader (x : Slot) (h : List Word) (prot : Bool) : Slot :=
  { x with fontNumber := headerWord h 0, glyphCount := headerWord h 1, fallback := headerWord h 6
           elongation := headerWord h 7, stackStep := headerWord h 8, prot := prot }

theorem State.takeHeader_of_unsound (inBank : s.slots[job.slot].offset < Config.bankWords)
    (unsound : headerSound job.header = false) : s.takeHeader job = s.failCopy job.slot .badHeader := by
  unfold State.takeHeader
  exact (if_neg (Nat.not_le.2 inBank)).trans (if_pos unsound)

theorem State.takeHeader_of_outside (inBank : s.slots[job.slot].offset < Config.bankWords)
    (sound : headerSound job.header = true)
    (outside : Config.bankWords < s.slots[job.slot].offset + imageLength job.header) :
    s.takeHeader job = s.failCopy job.slot .outOfBank := by
  unfold State.takeHeader
  exact (if_neg (Nat.not_le.2 inBank)).trans ((if_neg (by simp [sound])).trans (if_pos outside))

theorem State.takeHeader_of_sound (inBank : s.slots[job.slot].offset < Config.bankWords)
    (sound : headerSound job.header = true)
    (inside : s.slots[job.slot].offset + imageLength job.header ≤ Config.bankWords) :
    s.takeHeader job = { s with
      copy := some job, slots := s.slots.set job.slot (s.slots[job.slot].withHeader job.header job.prot) } := by
  unfold State.takeHeader
  exact (if_neg (Nat.not_le.2 inBank)).trans ((if_neg (by simp [sound])).trans (if_neg (Nat.not_lt.2 inside)))

/-- The ninth header word read: the header is taken. -/
theorem exec_lastHeaderRead (copy : s.copy = some job) (bus : s.bus.holder = some .copy)
    (bank : s.slots[job.slot].bank = p.val) (eight : job.header.length = 8)
    (inBank : s.slots[job.slot].offset + job.header.length < Config.bankWords)
    (hh : h = job.header ++ [trueRead s.banks[p] (s.slots[job.slot].offset + job.header.length)]) :
    exec .installCopyRead s =
      .next (({ s.endUnit with free := s.free + 9 } : State).takeHeader { job with header := h }).settle := by
  rw [exec_copyRead copy bus, State.copyRead_of_last_header (s := s.endUnit) (bankNumber_val bank) eight,
    State.headerRead_eq (s := s.endUnit) inBank hh]
  rfl

/-- The words of the image as the copy reads them in its tables are those of the bank. -/
theorem CopyInTables.addTableEntry_eq {w : Nat → Word} {r : Except InstallReason Slot} (c : CopyInTables s job p w)
    (entry : EntryRead job.header s.slots[job.slot] w r) :
    addTableEntry job.header s.slots[job.slot] (s.imageWord s.slots[job.slot] p) = r := by
  refine entry.addTableEntry_eq c.unfinished fun n within => ?_
  have place := c.place
  rw [State.imageWord_of_inBank (by omega), c.word n]

end

/-- Settles O8: the header word read joins the job, and the ninth completes the header. -/
theorem installCopyReadsNextHeaderWord : Obligations.InstallCopyReadsNextHeaderWord := by
  unfold Obligations.InstallCopyReadsNextHeaderWord
  refine ⟨fun h => ?_, fun h => ?_, fun s job p h copy bus bank inBank hh => ⟨fun few => ?_, fun eight sound inside => ?_⟩⟩
  · simp [headerSound, and_assoc]
  · unfold imageLength
    omega
  · refine ⟨({ s.endUnit with free := s.free + 9, copy := some { job with header := h } } : State).settle, ?_, ?_, ?_, ?_,
      ?_, ?_⟩
    · rw [exec_copyRead copy bus, State.copyRead_of_header (s := s.endUnit) (bankNumber_val bank) few,
        State.headerRead_eq (s := s.endUnit) inBank hh]
      rfl
    · rw [State.settle_copy]
    · rw [State.settle_slots]; rfl
    · rw [State.settle_banks]; rfl
    · rw [State.settle_classes]; rfl
    · rw [State.settle_port]; rfl
  · refine ⟨_, exec_lastHeaderRead copy bus bank eight inBank hh, ?_⟩
    have low : s.slots[job.slot].offset < Config.bankWords := by omega
    have filled := State.takeHeader_of_sound (s := { s.endUnit with free := s.free + 9 })
      (job := { job with header := h }) low sound inside
    rw [filled]
    refine ⟨?_, ?_, ?_, ?_, ?_, ?_, ?_⟩
    · rw [State.settle_copy]
    · rw [State.settle_slots]; rfl
    · rw [State.settle_installFailed]; rfl
    · rw [State.settle_installDone]; rfl
    · rw [State.settle_banks]; rfl
    · rw [State.settle_classes]; rfl
    · rw [State.settle_port]; rfl

/-- Settles O7: by the check that fails, in the order in which the copy meets them. -/
theorem installCopyFailsByItsChecks : Obligations.InstallCopyFailsByItsChecks := by
  unfold Obligations.InstallCopyFailsByItsChecks
  refine ⟨fun s bank offset i ready idle empty lowest absent => ?_,
    fun s job p h copy bus bank eight inBank hh fails => ?_, fun s job p w tables => ⟨fun reason bad => ?_, fun x ok more => ?_⟩⟩
  · refine ⟨_, exec_installFont ready idle empty lowest, ?_⟩
    rw [State.startCopy_of_absent absent]
    refine ⟨by rw [State.settle_port]; rfl, by rw [State.settle_copy]; rfl, ?_, by rw [State.settle_installFailed]; rfl⟩
    rw [State.settle_slots]
    show clearSlot (s.slots.set i _) i = _
    simp [clearSlot]
  · have read : h = job.header ++ [trueRead s.banks[p] (s.slots[job.slot].offset + job.header.length)] := by rw [eight, hh]
    refine ⟨_, exec_lastHeaderRead copy bus bank eight (by rw [eight]; exact inBank) read, ?_⟩
    have low : s.slots[job.slot].offset < Config.bankWords := by omega
    cases sound : headerSound h with
    | false =>
      have failed := State.takeHeader_of_unsound (s := { s.endUnit with free := s.free + 9 })
        (job := { job with header := h }) low sound
      rw [failed, if_pos rfl]
      exact State.failCopy_fails rfl rfl rfl rfl
    | true =>
      have outside := fails.resolve_left (by rw [sound]; decide)
      have failed := State.takeHeader_of_outside (s := { s.endUnit with free := s.free + 9 })
        (job := { job with header := h }) low sound outside
      rw [failed, if_neg (by decide)]
      exact State.failCopy_fails rfl rfl rfl rfl
  · refine ⟨_, exec_copyRead tables.copy tables.bus, ?_⟩
    rw [State.copyRead_of_bad_entry (s := s.endUnit) (bankNumber_val tables.bank) (Nat.le_of_eq tables.header.symm)
      (tables.addTableEntry_eq bad)]
    exact State.failCopy_fails rfl rfl rfl rfl
  · refine ⟨_, exec_copyRead tables.copy tables.bus, ?_⟩
    have unfinished : ¬ imageComplete job.header x = true := by simpa [imageComplete] using more
    rw [State.copyRead_of_entry (s := s.endUnit) (bankNumber_val tables.bank) (Nat.le_of_eq tables.header.symm)
      (tables.addTableEntry_eq ok), if_neg unfinished]
    refine ⟨?_, ?_, ?_, ?_, ?_, ?_, ?_⟩
    · rw [State.settle_copy]; exact tables.copy
    · rw [State.settle_slots]; rfl
    · rw [State.settle_installFailed]; rfl
    · rw [State.settle_installDone]; rfl
    · rw [State.settle_banks]; rfl
    · rw [State.settle_classes]; rfl
    · rw [State.settle_port]; rfl

/-! ## The copy's completion (R9) -/

/-- A slot withdrawn: EMPTY at count 0, else RETIRING (R9, R11). -/
def Slot.withdrawn (x : Slot) : Slot := if x.refCount = 0 then emptySlotRecord else { x with state := .retiring }

/-- A slot RESIDENT at the end of its copy (R9). -/
def Slot.completed (x : Slot) : Slot := { x with state := .resident, refCount := 0, imageLost := false }

/-- The slots after a copy's completion: one slot RESIDENT, and the other RESIDENT slot of its number withdrawn. -/
theorem State.completeCopy_slots (s : State) (i : Fin 8)
    (one : ∀ j k : Fin 8, j ≠ i → k ≠ i → s.slots[j].state = .resident → s.slots[k].state = .resident →
      s.slots[j].fontNumber = s.slots[k].fontNumber → j = k) :
    (s.completeCopy i).slots[i] = s.slots[i].completed ∧ ∀ j : Fin 8, j ≠ i → (s.completeCopy i).slots[j] =
      if s.slots[j].state = .resident ∧ s.slots[j].fontNumber = s.slots[i].fontNumber then s.slots[j].withdrawn
      else s.slots[j] := by
  let u : State := { s with slots := s.slots.set i s.slots[i].completed, copy := none
                            attention := { s.attention with installDone := some i } }
  have other (j : Fin 8) (hj : j ≠ i) : u.slots[j] = s.slots[j] := set_other _ (Ne.symm hj) _
  have done : u.slots[i] = s.slots[i].completed := set_same _ _ _
  cases older : slotIds.find? fun j => decide (j ≠ i) && decide (s.slots[j].state = .resident) &&
      decide (s.slots[j].fontNumber = s.slots[i].fontNumber) with
  | none =>
    have e : s.completeCopy i = u := by
      unfold State.completeCopy
      simp only [older]
      rfl
    rw [e]
    refine ⟨done, fun j hj => ?_⟩
    have no := List.find?_eq_none.1 older j (mem_slotIds j)
    simp only [Bool.and_eq_true, decide_eq_true_eq, and_assoc] at no
    rw [other j hj, if_neg fun h => no ⟨hj, h⟩]
  | some k =>
    have e : s.completeCopy i = u.withdraw k := by
      unfold State.completeCopy
      simp only [older]
      rfl
    have found := List.find?_some older
    simp only [Bool.and_eq_true, decide_eq_true_eq, and_assoc] at found
    obtain ⟨hk, resident, number⟩ := found
    rw [e, State.withdraw_slots_eq]
    refine ⟨(set_other _ hk _).trans done, fun j hj => ?_⟩
    by_cases same : k = j
    · subst same
      refine ((set_same _ _ _).trans ?_).trans (if_pos ⟨resident, number⟩).symm
      rw [other k hk]
      rfl
    · rw [set_other _ same, other j hj, if_neg]
      exact fun ⟨r, n⟩ => same (one k j hk hj resident r (number.trans n.symm))

/-- Settles O9: the entry that fills the last table completes the copy. -/
theorem completedCopyReplacesItsFont : Obligations.CompletedCopyReplacesItsFont := by
  unfold Obligations.CompletedCopyReplacesItsFont
  intro s job p w x tables ok full one
  let u : State := { s.endUnit with slots := s.slots.set job.slot x }
  have last : imageComplete job.header x = true := by
    unfold imageComplete
    exact decide_eq_true (Nat.le_of_eq full.symm)
  have read : exec .installCopyRead s = .next (u.completeCopy job.slot).settle := by
    rw [exec_copyRead tables.copy tables.bus, State.copyRead_of_entry (s := s.endUnit) (bankNumber_val tables.bank)
      (Nat.le_of_eq tables.header.symm) (tables.addTableEntry_eq ok), if_pos last]
    rfl
  have own : u.slots[job.slot] = x := set_same _ _ _
  have other (j : Fin 8) (hj : j ≠ job.slot) : u.slots[j] = s.slots[j] := set_other _ (Ne.symm hj) _
  have slots := u.completeCopy_slots job.slot fun j k hj hk => by
    rw [other j hj, other k hk]
    exact one j k hj hk
  refine ⟨_, read, ?_, ?_, ?_, fun j hj => ?_⟩
  · rw [State.settle_copy, State.completeCopy_eq]
  · rw [State.settle_installDone, State.completeCopy_eq]
  · rw [State.settle_slots, slots.1, own]
    rfl
  · rw [State.settle_slots, slots.2 j hj, own, other j hj]
    rfl

end Sys2Proof.Machine

/-! The font store's events: the bus given by R151, store commands done, the station's hold and the outline fetch (R147, R148, R151
to R153, R155, R156, R168). -/

namespace Sys2Proof.Machine

/-! ## The bus after an event (R151) -/

section
variable {s t : State}

theorem State.nextUser_congr (last : t.bus.last = s.bus.last) (wants : ∀ u, t.wantsBus u = s.wantsBus u) :
    t.nextUser = s.nextUser := by
  unfold State.nextUser
  rw [wants .hold, wants .store, wants .copy, wants .fetcher, last]

theorem State.giveBus_bus_congr (bus : t.bus = s.bus) (wants : ∀ u, t.wantsBus u = s.wantsBus u) :
    t.giveBus.bus = s.giveBus.bus := by
  have next : t.nextUser = s.nextUser := State.nextUser_congr (by rw [bus]) wants
  unfold State.giveBus
  rw [bus, show t.wantsBus = s.wantsBus from funext wants, next]
  dsimp only
  split
  · rfl
  · split <;> rfl

/-- Neither the walk nor a selection round changes the work that waits for the bus. -/
theorem State.beforeBus_wants (s : State) (u : BusUser) : s.wakeWalk.selectionRound.wantsBus u = s.wantsBus u := by
  have round (v : State) : v.selectionRound.imaging.fetch = v.imaging.fetch := by
    rcases v.selectionRound_cases with ⟨e, -⟩ | ⟨g, r, -, -, -, -, e⟩
    · rw [e]
    · rw [e]; rfl
  apply State.wantsBus_congr
  · rw [State.selectionRound_eq, State.wakeWalk_eq]
  · rw [round, State.wakeWalk_imaging]
  · rw [State.selectionRound_eq, State.wakeWalk_eq]
  · rw [State.selectionRound_eq, State.wakeWalk_eq]

theorem State.settle_bus_eq (s : State) : s.settle.bus = s.giveBus.bus := by
  rw [State.settle_bus]
  exact State.giveBus_bus_congr (by rw [State.selectionRound_eq, State.wakeWalk_eq]) s.beforeBus_wants

/-- A user that has the bus and wants it keeps it. -/
theorem State.settle_holder_kept {u : BusUser} (held : s.bus.holder = some u) (wants : s.wantsBus u = true) :
    s.settle.bus.holder = some u := by
  rw [State.settle_bus_eq]
  unfold State.giveBus
  rw [held, Option.filter_some, if_pos wants]

/-- A free bus, or one that its holder wants no more, goes to the next user. -/
theorem State.settle_holder_next (free : ∀ u, s.bus.holder = some u → s.wantsBus u = false) :
    s.settle.bus.holder = s.nextUser := by
  have given : s.bus.holder.filter s.wantsBus = none := by
    rw [Option.filter_eq_none_iff]
    intro u held
    rw [free u held]
    exact Bool.false_ne_true
  rw [State.settle_bus_eq]
  unfold State.giveBus
  rw [given]
  dsimp only
  split
  · next u next => rw [next]
  · next next => rw [next]

/-- After an event a user without work does not have the bus. -/
theorem State.settle_holder_ne {u : BusUser} (idle : s.wantsBus u = false) : s.settle.bus.holder ≠ some u := by
  intro held
  have wants := s.settle_busSound.holder u held
  have same : s.settle.wantsBus u = s.wantsBus u := by
    rw [← s.beforeBus_wants u]
    apply State.wantsBus_congr
    · rw [State.settle_copy, State.selectionRound_eq, State.wakeWalk_eq]
    · rw [State.settle_imaging_eq]
    · rw [State.settle_port, State.selectionRound_eq, State.wakeWalk_eq]
    · rw [State.settle_holdRequest, State.selectionRound_eq, State.wakeWalk_eq]
  rw [same, idle] at wants
  cases wants

end

/-! ## The hold (R152, R153) -/

/-- Setting the hold request changes no other user's work. -/
theorem State.setHoldRequest_wants (s : State) (b : Bool) {u : BusUser} (other : u ≠ .hold) :
    (s.setHoldRequest b).wantsBus u = s.wantsBus u := by
  cases u with
  | hold => exact absurd rfl other
  | copy | fetcher | store => rfl

/-- Settles O14: the reactions give the bus by R151 with the hold request as it now stands. -/
theorem holdIsGrantedAndDropped : Obligations.HoldIsGrantedAndDropped := by
  unfold Obligations.HoldIsGrantedAndDropped
  intro s
  let r := s.setHoldRequest true
  let d := s.setHoldRequest false
  have kept {b : Bool} {u : BusUser} (held : s.bus.holder = some u) (wants : (s.setHoldRequest b).wantsBus u = true) :
      (s.setHoldRequest b).settle.bus.holder = some u := State.settle_holder_kept (s := s.setHoldRequest b) held wants
  have raised : s.bus.holder = none → r.settle.bus.holder = some .hold := by
    intro free
    rw [State.settle_holder_next fun u held => by rw [show r.bus.holder = none from free] at held; cases held]
    rfl
  have dropped (held : s.bus.holder = some .hold) : d.settle.bus.holder = d.nextUser := by
    apply State.settle_holder_next
    intro u hu
    rw [show d.bus.holder = some .hold from held] at hu
    injection hu with hu
    exact hu ▸ rfl
  have noHold : d.wantsBus .hold = false := rfl
  have next : d.nextUser = if s.wantsBus .store then some .store else
      match s.wantsBus .copy, s.wantsBus .fetcher with
      | true, true => if s.bus.last = some .fetcher then some .copy else some .fetcher
      | true, false => some .copy
      | false, true => some .fetcher
      | false, false => none := rfl
  refine ⟨⟨r.settle, rfl, ?_, raised, fun u held wants => kept held ?_, ?_, ?_, ?_⟩,
    d.settle, rfl, ?_, State.settle_holder_ne noHold, fun u other held wants => kept held ?_,
    fun held store => ?_, fun held store copy fetcher => ?_, fun held store copy fetcher => ?_,
    fun held store copy fetcher => ?_, fun held store copy fetcher => ?_, ?_, ?_, ?_⟩
  · rw [State.settle_holdRequest]; rfl
  · by_cases hold : u = .hold
    · rw [hold]; rfl
    · rw [State.setHoldRequest_wants s true hold]; exact wants
  · rw [State.settle_slots]; rfl
  · rw [State.settle_banks]; rfl
  · rw [State.settle_port]; rfl
  · rw [State.settle_holdRequest]; rfl
  · rw [State.setHoldRequest_wants s false other]; exact wants
  · rw [dropped held, next, store]; rfl
  · rw [dropped held, next, store, copy, fetcher]; rfl
  · rw [dropped held, next, store, copy, fetcher]; rfl
  · rw [dropped held, next, store, copy, fetcher]; rfl
  · rw [dropped held, next, store, copy, fetcher]; rfl
  · rw [State.settle_slots]; rfl
  · rw [State.settle_banks]; rfl
  · rw [State.settle_port]; rfl

/-- Settles O15: by whether the hold is granted. -/
theorem holdReadDeliversOneWord : Obligations.HoldReadDeliversOneWord := by
  unfold Obligations.HoldReadDeliversOneWord
  intro s p offset
  refine ⟨fun granted => ?_, fun waits => ?_⟩
  · rw [exec_holdRead]
    unfold State.stationReads
    rw [if_pos granted]
    rfl
  · rw [exec_holdRead]
    unfold State.stationReads
    rw [if_neg waits]

/-! ## Words stored (R147, R153, R156) -/

section
variable {p : BankPosition} {m : Memory} {a b : Nat} {ws : List Word}

theorem storeWords_of_board (kind : p.kind = .board) (board : p.board = some m) :
    storeWords p a ws = { p with board := some (writeWords m a ws) } := by
  unfold storeWords
  rw [kind, board]

theorem storeWords_of_other (kind : p.kind ≠ .board) : storeWords p a ws = p := by
  unfold storeWords
  split
  · next e _ => exact absurd e kind
  · rfl

/-- Words stored in a memory stand at their places, and every other word stays. -/
theorem readMemory_writeWords (wf : Memory.wf m) (inBank : a + ws.length ≤ Config.bankWords) (b : Nat) :
    readMemory (writeWords m a ws) b =
      if a ≤ b ∧ b < a + ws.length then ws.getD (b - a) 0#16 else readMemory m b := by
  split
  · next within =>
    have stored := readMemory_writeWords_stored wf inBank (b - a) (by omega)
    rwa [Nat.add_sub_cancel' within.1] at stored
  · next outside => exact readMemory_writeWords_other (by omega)

end

section
variable {s : State} {p : Fin 8} {m : Memory} {a : Nat} {ws : List Word}

theorem State.storeAt_of_other (kind : s.banks[p].kind ≠ .board) : s.storeAt p a ws = s := by
  have same : modifyAt s.banks p (fun q => storeWords q a ws) = s.banks := by
    unfold modifyAt
    dsimp only
    rw [storeWords_of_other kind]
    simp
  unfold State.storeAt
  rw [same]

theorem State.storeAt_bank (kind : s.banks[p].kind = .board) (board : s.banks[p].board = some m) :
    (s.storeAt p a ws).banks[p] = { s.banks[p] with board := some (writeWords m a ws) } := by
  rw [State.storeAt_banks, modifyAt_same, storeWords_of_board kind board]

theorem State.storeAt_other {q : Fin 8} (other : q ≠ p) : (s.storeAt p a ws).banks[q] = s.banks[q] := by
  rw [State.storeAt_banks, modifyAt_other _ (Ne.symm other)]

end

/-- Settles O16: the guard before the kind, and a BOARD position stores the word. -/
theorem holdWriteIsGuarded : Obligations.HoldWriteIsGuarded := by
  unfold Obligations.HoldWriteIsGuarded
  intro s p offset word
  have granted (held : s.bus.holder = some .hold) : s.stationWrites p offset.toNat word =
      if guarded s.slots p = true ∨ s.banks[p].kind = .cartridge then
        { s with attention := { s.attention with guardViolation := some p } }
      else s.storeAt p offset.toNat [word] := if_pos held
  refine ⟨fun held refused => ?_, fun held free absent => ?_, fun m held free kind board wf => ?_, fun waits => ?_⟩
  · rw [exec_holdWrite, granted held, if_pos refused]
  · have passes : ¬ (guarded s.slots p = true ∨ s.banks[p].kind = .cartridge) := by simp [-Fin.getElem_fin, free, absent]
    rw [exec_holdWrite, granted held, if_neg passes, State.storeAt_of_other (by rw [absent]; decide)]
  · have passes : ¬ (guarded s.slots p = true ∨ s.banks[p].kind = .cartridge) := by simp [-Fin.getElem_fin, free, kind]
    have inBank : offset.toNat + [word].length ≤ Config.bankWords := offset.isLt
    have reads := readMemory_writeWords (ws := [word]) wf inBank
    refine ⟨s.storeAt p offset.toNat [word], writeWords m offset.toNat [word], ?_, ?_, ?_, fun a other => ?_,
      fun q other => State.storeAt_other other, rfl, rfl⟩
    · rw [exec_holdWrite, granted held, if_neg passes]
    · rw [State.storeAt_bank kind board]
    · rw [reads, if_pos ⟨Nat.le_refl _, Nat.lt_succ_self _⟩, Nat.sub_self]
      rfl
    · have outside : ¬ (offset.toNat ≤ a ∧ a < offset.toNat + [word].length) := by
        rw [List.length_singleton]
        omega
      rw [reads, if_neg outside]
  · rw [exec_holdWrite]
    unfold State.stationWrites
    rw [if_neg waits]

/-! ## Store commands done (R155, R156) -/

/-- Settles O12: the words are read in order and the bus is released. -/
theorem readStoreDeliversItsWords : Obligations.ReadStoreDeliversItsWords := by
  unfold Obligations.ReadStoreDeliversItsWords
  intro s p offset count acting held
  let u : State := s.endUnit.respond (doneResponse ++ listWords (readRun s.banks[p] offset count))
  have done : exec .readStoreComplete s = .next u.settle := by
    rw [exec_readStoreComplete]
    unfold State.readDone
    rw [acting, held]
  have length : (readRun s.banks[p] offset count).length = count := by simp [readRun]
  refine ⟨u.settle, readRun s.banks[p] offset count, done, ?_, length, fun k hk => ?_, State.settle_holder_ne rfl, ?_, ?_, ?_⟩
  · rw [State.settle_port]
    show PortPhase.responding (0x0100#16 :: natWord (readRun s.banks[p] offset count).length :: _) = _
    rw [length]
  · refine Eq.trans (b := stationReadWord s.banks[p] (offset + k)) ?_ rfl
    unfold readRun
    rw [List.getD_eq_getElem?_getD, List.getElem?_map, List.getElem?_range hk]
    rfl
  · rw [State.settle_slots]; rfl
  · rw [State.settle_banks]; rfl
  · rw [State.settle_classes]; rfl

theorem writeCheck_of_refused {s : State} {p : Fin 8} (refused : s.banks[p].kind ≠ .board ∨ guarded s.slots p = true) :
    ∃ reason, writeCheck s.slots s.banks p = some reason ∧ refusedResponse reason =
      [if s.banks[p].kind = .absent then 0x0406#16 else if s.banks[p].kind = .cartridge then 0x0407#16 else 0x0408#16] := by
  unfold writeCheck
  cases kind : s.banks[p].kind with
  | absent => exact ⟨.absent, rfl, rfl⟩
  | cartridge => exact ⟨.readOnly, rfl, rfl⟩
  | board =>
    have held : guarded s.slots p = true := refused.resolve_left fun h => h kind
    exact ⟨.guarded, if_pos held, rfl⟩

theorem writeCheck_of_free {s : State} {p : Fin 8} (kind : s.banks[p].kind = .board) (free : guarded s.slots p = false) :
    writeCheck s.slots s.banks p = none := by
  unfold writeCheck
  rw [kind, free]
  rfl

/-- Settles O13: by the first check that fails, and else the words are stored at the position. -/
theorem writeStoreStoresOrIsRefused : Obligations.WriteStoreStoresOrIsRefused := by
  unfold Obligations.WriteStoreStoresOrIsRefused
  intro s p offset words acting held
  refine ⟨fun refused u hu => ?_, fun m kind board free wf inBank => ?_⟩
  · obtain ⟨reason, check, response⟩ := writeCheck_of_refused refused
    refine ⟨?_, ?_, ?_⟩
    · rw [exec_writeStoreComplete]
      unfold State.writeDone
      rw [acting, held]
      dsimp only
      rw [check]
      dsimp only
      rw [response, hu]
      rfl
    · rw [hu]
      exact State.settle_holder_ne rfl
    · rw [State.settle_attention, hu]
  · let u : State := (s.storeAt p offset words).endUnit.respond doneResponse
    refine ⟨u.settle, writeWords m offset words, ?_, ?_, ?_, readMemory_writeWords wf inBank, ?_, fun q other => ?_, ?_,
      State.settle_holder_ne rfl, ?_⟩
    · rw [exec_writeStoreComplete]
      unfold State.writeDone
      rw [acting, held]
      dsimp only
      rw [writeCheck_of_free kind free]
    · rw [State.settle_port]; rfl
    · rw [State.settle_banks]
      show (s.storeAt p offset words).banks[p].board = _
      rw [State.storeAt_bank kind board]
    · rw [State.settle_banks]
      show (s.storeAt p offset words).banks[p].cartridge = _
      rw [State.storeAt_bank kind board]
    · rw [State.settle_banks]
      exact State.storeAt_other other
    · rw [State.settle_slots]; rfl
    · rw [State.settle_attention]; rfl

/-! ## The outline fetch (R168) -/

/-- Settles O18: the words read complete the LOAD OUTLINE, for which the unit stays SENDING. -/
theorem fetchDeliversTheOutline : Obligations.FetchDeliversTheOutline := by
  unfold Obligations.FetchDeliversTheOutline
  intro s f p n void fetch held bank out sending
  let u : State := { s.endUnit with imaging := s.imaging.deliver (s.outlineWords f) }
  have done : exec .outlineFetchDone s = .next u.settle := by
    rw [exec_outlineFetchDone]
    unfold State.fetchDone
    rw [fetch]
    exact congrArg _ (if_pos held)
  have words : s.outlineWords f = (List.range f.count).map fun k => trueRead s.banks[p] (f.offset + k) := by
    unfold State.outlineWords
    rw [bankNumber_val bank]
  have unit : u.imaging.unit = .sending := sending
  have imaging : u.settle.imaging = u.imaging :=
    State.settle_imaging_same (by rw [unit]; decide) (by rw [unit]; decide)
  refine ⟨u.settle, s.outlineWords f, done, ?_, ?_, fun k hk => ?_, ?_, State.settle_holder_ne rfl, ?_, ?_, ?_⟩
  · rw [imaging]
    show (s.imaging.deliver (s.outlineWords f)).out = _
    unfold Imaging.deliver
    rw [out]
    rfl
  · rw [words]
    simp
  · rw [words, List.getD_eq_getElem?_getD, List.getElem?_map, List.getElem?_range hk]
    rfl
  · rw [imaging]; rfl
  · rw [imaging]; rfl
  · rw [State.settle_slots]; rfl
  · rw [State.settle_banks]; rfl

end Sys2Proof.Machine

/-! The two resets: power-on reset of every block, and the library reset that clears the work in progress (R23, R130, R146, R160,
R161, R163, R173). -/

namespace Sys2Proof.Machine

/-! ## The reactions on an empty Galley Table -/

theorem emptyTable_records (g : Fin 32) : emptyTable.records[g] = none := Vector.getElem_replicate _

theorem emptyTable_marked (i : Fin 4) : emptyTable.marked i = none := by
  cases e : emptyTable.marked i with
  | none => rfl
  | some g =>
    obtain ⟨r, hr, -⟩ := GalleyTable.marked_some e
    rw [emptyTable_records] at hr
    cases hr

section
variable {s : State}

theorem State.replyOn_of_none {i : Fin 4} (noResult : ∀ m, s.links[i].measure ≠ .waiting m)
    (noReport : s.table.marked i = none) : s.replyOn i = s := by
  unfold State.replyOn
  rw [takeReply_of_none noResult noReport]
  simp

theorem State.replies_of_empty (table : s.table = emptyTable) (noResult : ∀ (i : Fin 4) m, s.links[i].measure ≠ .waiting m) :
    s.replies = s := by
  have one (i : Fin 4) : s.replyOn i = s :=
    State.replyOn_of_none (noResult i) (by rw [table]; exact emptyTable_marked i)
  unfold State.replies
  rw [one 0, one 1, one 2, one 3]

theorem State.noticeStall_of_empty (table : s.table = emptyTable) : s.noticeStall = s := by
  have room : emptyTable.stallHolds = false := by
    unfold GalleyTable.stallHolds
    rfl
  unfold State.noticeStall
  dsimp only
  rw [table, room]
  simp only [Bool.false_and, Bool.false_eq_true, if_false]
  rw [show ({ emptyTable with stalled := false } : GalleyTable) = s.table from table.symm]

/-- With an empty Galley Table and no measure result waiting the reactions give the bus and do nothing else. -/
theorem State.settle_of_empty (table : s.table = emptyTable) (unit : s.imaging.unit ≠ .waitingLines)
    (noResult : ∀ (i : Fin 4) m, s.links[i].measure ≠ .waiting m) : s.settle = { s with bus := s.giveBus.bus } := by
  have given : s.giveBus = { s with bus := s.giveBus.bus } := by
    conv_lhs => rw [State.giveBus_eq]
    rw [State.giveBus_eq]
  have choose : s.table.choose = none := by rw [table]; rfl
  unfold State.settle
  rw [State.wakeWalk_of_not_waiting unit, State.selectionRound_of_none choose, State.replies_of_empty, State.noticeStall_of_empty]
  · exact given
  all_goals rw [given]
  · exact table
  · exact table
  · exact noResult

/-- The bus given when only the station may want it. -/
theorem State.giveBus_of_hold (store : s.wantsBus .store = false) (copy : s.wantsBus .copy = false)
    (fetcher : s.wantsBus .fetcher = false) (last : s.bus.last = none)
    (holder : ∀ u, s.bus.holder = some u → u = .hold) :
    s.giveBus.bus = { holder := if s.bus.holdRequest then some .hold else none, holdRequest := s.bus.holdRequest
                      last := none } := by
  have next : s.nextUser = if s.bus.holdRequest then some .hold else none := by
    unfold State.nextUser
    rw [store, copy, fetcher]
    rfl
  unfold State.giveBus
  rw [next]
  cases request : s.bus.holdRequest with
  | true =>
    cases held : s.bus.holder with
    | none =>
      show ({ holder := some .hold, holdRequest := s.bus.holdRequest, last := s.bus.last } : Bus) = _
      rw [request, last]
      rfl
    | some u =>
      obtain rfl := holder u held
      rw [Option.filter_some, if_pos (show s.wantsBus .hold = true from request)]
      show ({ holder := some .hold, holdRequest := s.bus.holdRequest, last := s.bus.last } : Bus) = _
      rw [request, last]
      rfl
  | false =>
    have free : s.bus.holder.filter s.wantsBus = none := by
      rw [Option.filter_eq_none_iff]
      intro u held
      rw [holder u held, show s.wantsBus .hold = false from request]
      exact Bool.false_ne_true
    rw [free]
    show ({ holder := none, holdRequest := s.bus.holdRequest, last := s.bus.last } : Bus) = _
    rw [request, last]
    rfl

end

/-! ## Words that a cut WRITE STORE has stored (R156, log 10) -/

section
variable {s : State} {p : Fin 8} {o : Nat} {ws : List Word}

/-- The words that a cut write had moved: some of its first ones, or none if a check refuses it. -/
def State.movedWords (s : State) (p : Fin 8) (ws : List Word) : List Word :=
  if (writeCheck s.slots s.banks p).isNone then ws.take (min (Config.wordsMoved s.free) (ws.length - 1)) else []

theorem State.movedWords_prefix (s : State) (p : Fin 8) (ws : List Word) :
    s.movedWords p ws = ws.take (s.movedWords p ws).length := by
  unfold State.movedWords
  split
  · rw [List.length_take, List.take_eq_take_iff]
    omega
  · rfl

theorem State.movedWords_of_refused (refused : s.banks[p].kind ≠ .board ∨ guarded s.slots p = true) :
    s.movedWords p ws = [] := by
  obtain ⟨reason, check, -⟩ := writeCheck_of_refused refused
  unfold State.movedWords
  rw [check]
  rfl

theorem writeWords_nil (m : Memory) (a : Nat) : writeWords m a [] = m := rfl

theorem State.storeAt_nil : s.storeAt p o [] = s := by
  by_cases kind : s.banks[p].kind = .board
  · have same : modifyAt s.banks p (fun q => storeWords q o []) = s.banks := by
      have stored : storeWords s.banks[p] o [] = s.banks[p] := by
        unfold storeWords
        split
        · next m _ board =>
          rw [writeWords_nil, ← board]
        · rfl
      unfold modifyAt
      dsimp only
      rw [stored]
      simp
    unfold State.storeAt
    rw [same]
  · exact State.storeAt_of_other kind

theorem State.storePart_banks_eq (s : State) (p : Fin 8) (o : Nat) (ws : List Word) :
    (s.storePart p o ws).banks = (s.storeAt p o (s.movedWords p ws)).banks := by
  unfold State.storePart State.movedWords
  dsimp only
  split
  · rfl
  · rw [State.storeAt_nil]

theorem State.storePart_other {q : Fin 8} (other : q ≠ p) : (s.storePart p o ws).banks[q] = s.banks[q] := by
  rw [State.storePart_banks_eq]
  exact State.storeAt_other other

theorem storeWords_frame (p : BankPosition) (o : Nat) (ws : List Word) :
    (storeWords p o ws).cartridge = p.cartridge ∧ (storeWords p o ws).prot = p.prot ∧
      (p.board = none → (storeWords p o ws).board = none) := by
  unfold storeWords
  split
  · next m _ board => exact ⟨rfl, rfl, fun h => by rw [board] at h; cases h⟩
  · exact ⟨rfl, rfl, fun h => h⟩

theorem State.storePart_bank (s : State) (p : Fin 8) (o : Nat) (ws : List Word) :
    (s.storePart p o ws).banks[p] = storeWords s.banks[p] o (s.movedWords p ws) := by
  rw [State.storePart_banks_eq, State.storeAt_banks, modifyAt_same]

/-- What a cut write has stored in a board's memory: its first words, how many is left open, none if a check refuses it. -/
theorem State.storePart_board {m : Memory} (board : s.banks[p].board = some m) (wf : Memory.wf m)
    (inBank : o + ws.length ≤ Config.bankWords) :
    ∃ (n : Nat) (m' : Memory), n ≤ ws.length ∧ (s.storePart p o ws).banks[p].board = some m' ∧
      (∀ a, readMemory m' a = if o ≤ a ∧ a < o + n then ws.getD (a - o) 0#16 else readMemory m a) ∧
      (s.banks[p].kind ≠ .board ∨ guarded s.slots p = true → n = 0) := by
  have few : (s.movedWords p ws).length ≤ ws.length := by
    have := congrArg List.length (s.movedWords_prefix p ws)
    rw [List.length_take] at this
    omega
  rw [State.storePart_bank]
  by_cases kind : s.banks[p].kind = .board
  · rw [storeWords_of_board kind board]
    refine ⟨(s.movedWords p ws).length, _, few, rfl, fun a => ?_, fun refused => by rw [State.movedWords_of_refused refused]; rfl⟩
    rw [readMemory_writeWords wf (by omega)]
    split
    · next within =>
      have at_ : a - o < (s.movedWords p ws).length := by omega
      rw [s.movedWords_prefix p ws, List.getD_eq_getElem?_getD, List.getElem?_take_of_lt at_, ← List.getD_eq_getElem?_getD]
    · rfl
  · rw [storeWords_of_other kind]
    refine ⟨0, m, Nat.zero_le _, board, fun a => ?_, fun _ => rfl⟩
    rw [if_neg (by omega)]

theorem State.powerCutStore_of_write (acting : s.port.phase = .acting (.write p o ws)) (held : s.bus.holder = some .store) :
    s.powerCutStore = s.storePart p o ws := by
  unfold State.powerCutStore
  rw [acting, held]

/-- A position on which no write holds the bus keeps its contents when the power fails. -/
theorem State.powerCutStore_bank_kept
    (none : s.bus.holder ≠ some .store ∨ ∀ o ws, s.port.phase ≠ .acting (.write p o ws)) :
    s.powerCutStore.banks[p] = s.banks[p] := by
  unfold State.powerCutStore
  split
  · next q o ws acting held =>
    by_cases same : p = q
    · subst same
      rcases none with h | h
      · exact absurd held h
      · exact absurd acting (h o ws)
    · exact State.storePart_other same
  · rfl

theorem State.powerCutStore_cartridge (s : State) (p : Fin 8) : s.powerCutStore.banks[p].cartridge = s.banks[p].cartridge := by
  unfold State.powerCutStore
  split
  · next q o ws acting held =>
    by_cases same : p = q
    · subst same
      rw [State.storePart_bank]
      exact (storeWords_frame _ _ _).1
    · rw [State.storePart_other same]
  · rfl

end

/-! ## Power-on reset (R160) -/

theorem sensedProtection_iff (p : BankPosition) :
    sensedProtection p = true ↔ ∃ m, p.cartridge = some m ∧ readMemory m 0 = Config.protectMark := by
  unfold sensedProtection
  cases h : p.cartridge with
  | none => exact ⟨fun e => (by cases e), fun ⟨_, e, _⟩ => (by cases e)⟩
  | some m => exact ⟨fun e => ⟨m, rfl, of_decide_eq_true e⟩, fun ⟨_, e, h⟩ => decide_eq_true (Option.some.inj e ▸ h)⟩

/-- The state of power-on reset before the reactions of its event. -/
def State.powered (s : State) : State :=
  { State.reset with
    links := s.links.map Link.afterPowerOn
    banks := s.powerCutStore.banks.map sensePosition
    bus := { State.reset.bus with holdRequest := s.bus.holdRequest }
    imaging := s.imaging.afterPowerOn
    free := s.powerCutStore.free
    pending := s.pending }

theorem State.powerOn_eq (s : State) : s.powerOn = s.powered.settle := by
  unfold State.powerOn State.powered
  rw [s.powerCutStore_eq]

theorem Imaging.afterPowerOn_eq (m : Imaging) : m.afterPowerOn = if m.ready then
      { offlineImaging with ready := true, unit := .sending, out := some { record := .cacheClear, void := false } }
    else offlineImaging := rfl

theorem State.powered_link (s : State) (i : Fin 4) : s.powered.links[i] = s.links[i].afterPowerOn := by
  show (s.links.map Link.afterPowerOn)[i] = _
  rw [Fin.getElem_fin, Vector.getElem_map]
  rfl

theorem State.powered_bank (s : State) (p : Fin 8) : s.powered.banks[p] = sensePosition s.powerCutStore.banks[p] := by
  show (s.powerCutStore.banks.map sensePosition)[p] = _
  rw [Fin.getElem_fin, Vector.getElem_map]
  rfl

theorem State.powered_settle (s : State) : s.powered.settle = { s.powered with bus :=
    { holder := if s.bus.holdRequest then some .hold else none, holdRequest := s.bus.holdRequest, last := none } } := by
  have fetch : s.powered.imaging.fetch = none := by
    show s.imaging.afterPowerOn.fetch = none
    rw [Imaging.afterPowerOn_eq]
    split <;> rfl
  rw [State.settle_of_empty rfl ?_ fun i m => ?_, State.giveBus_of_hold rfl rfl ?_ rfl fun u h => by cases h]
  · rfl
  · unfold State.wantsBus
    rw [fetch]
    rfl
  · show s.imaging.afterPowerOn.unit ≠ _
    rw [Imaging.afterPowerOn_eq]
    split <;> exact fun e => by cases e
  · rw [State.powered_link]
    exact fun e => by cases e

/-- Settles O4: the reset state with what stays of the old one, on which the reactions only give the bus. -/
theorem powerOnResetStartsEveryBlock : Obligations.PowerOnResetStartsEveryBlock := by
  unfold Obligations.PowerOnResetStartsEveryBlock
  intro s
  refine ⟨s.powered.settle, by rw [exec_powerOnReset, State.powerOn_eq], ?_⟩
  rw [State.powered_settle]
  refine ⟨State.reset_slots, rfl, rfl, rfl, s.powered_link, rfl, fun p => ?_, rfl, rfl, rfl, rfl⟩
  show s.powered.banks[p].cartridge = _ ∧ _
  have bank := s.powered_bank p
  have cartridge := s.powerCutStore_cartridge p
  refine ⟨by rw [bank]; exact cartridge, ?_, fun kept => ?_, fun o ws held acting => ⟨fun noBoard => ?_, fun m board wf inBank => ?_⟩⟩
  · show s.powered.banks[p].prot = true ↔ _
    rw [bank, ← cartridge]
    exact sensedProtection_iff _
  · show s.powered.banks[p].board = _
    rw [bank, State.powerCutStore_bank_kept kept]
    rfl
  · show s.powered.banks[p].board = _
    rw [bank, State.powerCutStore_of_write acting held, State.storePart_bank]
    exact (storeWords_frame _ _ _).2.2 noBoard
  · show ∃ (n : Nat) (m' : Memory), n ≤ ws.length ∧ s.powered.banks[p].board = some m' ∧ _
    rw [bank, State.powerCutStore_of_write acting held]
    exact State.storePart_board board wf inBank

/-! ## Library reset (R161) -/

theorem resetSlot_eq (x : Slot) :
    resetSlot x = if x.state = .resident then { x with refCount := 0 } else emptySlotRecord := by
  unfold resetSlot
  cases x.state <;> rfl

theorem Imaging.afterLibraryReset_unit (m : Imaging) : m.afterLibraryReset.unit = if m.ready then .sending else .offline := by
  unfold Imaging.afterLibraryReset
  dsimp only
  split
  · split <;> rfl
  · rfl

theorem Imaging.afterLibraryReset_out_some {m : Imaging} {o : Outstanding} (h : m.out = some o) :
    m.afterLibraryReset.out = some { o with void := true } := by
  unfold Imaging.afterLibraryReset
  rw [h]
  dsimp only
  split
  · rfl
  · rfl

theorem Imaging.afterLibraryReset_out_none {m : Imaging} (h : m.out = none) :
    m.afterLibraryReset.out = if m.ready then some { record := .cacheClear, void := false } else none := by
  unfold Imaging.afterLibraryReset
  rw [h]
  dsimp only
  split
  · rfl
  · rfl

theorem Imaging.afterLibraryReset_fetch (m : Imaging) : m.afterLibraryReset.fetch = none := by
  unfold Imaging.afterLibraryReset
  dsimp only
  repeat' split
  all_goals rfl

/-- The library reset before the reactions of its event, answered. -/
def State.libraryReset (s : State) : State :=
  { s.workReset with rotation := 0, bus := s.bus.afterLibraryReset, attention := noAttention }.respond doneResponse

theorem State.libraryReset_link (s : State) (i : Fin 4) : s.libraryReset.links[i] = s.links[i].afterLibraryReset := by
  show (s.links.map Link.afterLibraryReset)[i] = _
  rw [Fin.getElem_fin, Vector.getElem_map]
  rfl

theorem State.libraryReset_slot (s : State) (i : Fin 8) : s.libraryReset.slots[i] = resetSlot s.slots[i] := by
  show (s.slots.map resetSlot)[i] = _
  rw [Fin.getElem_fin, Vector.getElem_map]
  rfl

theorem State.libraryReset_settle (s : State) : s.libraryReset.settle = { s.libraryReset with bus :=
    { holder := if s.bus.holdRequest then some .hold else none, holdRequest := s.bus.holdRequest, last := none } } := by
  have imaging : s.libraryReset.imaging = s.imaging.afterLibraryReset := rfl
  rw [State.settle_of_empty rfl ?_ fun i m => ?_, State.giveBus_of_hold rfl rfl ?_ rfl fun u h => ?_]
  · rfl
  · unfold State.wantsBus
    rw [imaging, Imaging.afterLibraryReset_fetch]
    rfl
  · exact of_decide_eq_true (Option.filter_eq_some_iff.1 h).2
  · rw [imaging, Imaging.afterLibraryReset_unit]
    split <;> exact fun e => by cases e
  · rw [State.libraryReset_link]
    exact fun e => by cases e

/-- Settles O5: each block's part of the reset, on which the reactions only give the bus. -/
theorem libraryResetClearsWorkInProgress : Obligations.LibraryResetClearsWorkInProgress := by
  unfold Obligations.LibraryResetClearsWorkInProgress
  intro s ready
  refine ⟨s.libraryReset.settle, exec_of_ready (c := .libraryReset) ready rfl, ?_⟩
  rw [State.libraryReset_settle]
  refine ⟨rfl, rfl, rfl, rfl, rfl, rfl, rfl, fun i => ?_, s.libraryReset_link, rfl, s.imaging.afterLibraryReset_galley,
    s.imaging.afterLibraryReset_fetch, s.imaging.afterLibraryReset_mirror, s.imaging.afterLibraryReset_ready,
    s.imaging.afterLibraryReset_unit, ?_⟩
  · exact (s.libraryReset_slot i).trans (resetSlot_eq _)
  · show s.imaging.afterLibraryReset.out = _
    cases out : s.imaging.out with
    | none => exact Imaging.afterLibraryReset_out_none out
    | some o => exact Imaging.afterLibraryReset_out_some out

end Sys2Proof.Machine

/-! A presence change: the socket, the slots whose images lay in it, the causes, the store command and the outline fetch that it cuts
short (R20, R147, R148, R150, R158, R169). -/

namespace Sys2Proof.Machine

/-! ## The slots that lose their images (R20) -/

/-- A slot record after a presence change at a position. -/
def Slot.afterLoss (x : Slot) (p : Fin 8) : Slot :=
  if x.bank ≠ p.val then x
  else
    match x.state with
    | .empty => x
    | .loading => emptySlotRecord
    | .resident => if x.refCount = 0 then emptySlotRecord else { x with state := .retiring, imageLost := true }
    | .retiring => { x with imageLost := true }

/-- A LOADING slot has its image in the position: its copy fails (R20). -/
def Slot.copyCut (x : Slot) (p : Fin 8) : Prop := x.bank = p.val ∧ x.state = .loading

section
variable {s : State} {p i j : Fin 8}

theorem State.loseSlot_of_elsewhere (h : s.slots[i].bank ≠ p.val) : s.loseSlot p i = s := if_pos h

theorem State.loseSlot_of_empty (here : s.slots[i].bank = p.val) (h : s.slots[i].state = .empty) : s.loseSlot p i = s := by
  unfold State.loseSlot
  rw [if_neg (not_not.2 here), h]

theorem State.loseSlot_of_loading (here : s.slots[i].bank = p.val) (h : s.slots[i].state = .loading) :
    s.loseSlot p i = s.failCopy i .bankChanged := by
  unfold State.loseSlot
  rw [if_neg (not_not.2 here), h]

theorem State.loseSlot_of_resident (here : s.slots[i].bank = p.val) (h : s.slots[i].state = .resident) :
    s.loseSlot p i =
      ({ s with slots := s.slots.set i { s.slots[i] with imageLost := true } } : State).withdraw i := by
  unfold State.loseSlot
  rw [if_neg (not_not.2 here), h]
  rfl

theorem State.loseSlot_of_retiring (here : s.slots[i].bank = p.val) (h : s.slots[i].state = .retiring) :
    s.loseSlot p i = { s with slots := s.slots.set i { s.slots[i] with imageLost := true } } := by
  unfold State.loseSlot
  rw [if_neg (not_not.2 here), h]
  rfl

theorem set_self {α : Type} {n : Nat} (v : Vector α n) (i : Fin n) : v.set i v[i] = v := by simp

theorem State.loseSlot_slots (s : State) (p i : Fin 8) :
    (s.loseSlot p i).slots = s.slots.set i (s.slots[i].afterLoss p) := by
  by_cases here : s.slots[i].bank = p.val
  · have inPlace : s.slots[i].afterLoss p = match s.slots[i].state with
        | .empty => s.slots[i]
        | .loading => emptySlotRecord
        | .resident =>
          if s.slots[i].refCount = 0 then emptySlotRecord
          else { s.slots[i] with state := .retiring, imageLost := true }
        | .retiring => { s.slots[i] with imageLost := true } := if_neg (not_not.2 here)
    rw [inPlace]
    cases state : s.slots[i].state with
    | empty => rw [State.loseSlot_of_empty here state, set_self]
    | loading => rw [State.loseSlot_of_loading here state]; rfl
    | resident =>
      rw [State.loseSlot_of_resident here state, State.withdraw_slots_eq]
      dsimp only
      rw [set_same]
      simp
    | retiring => rw [State.loseSlot_of_retiring here state]
  · rw [State.loseSlot_of_elsewhere here, show s.slots[i].afterLoss p = s.slots[i] from if_pos here, set_self]

theorem State.loseSlot_installFailed (s : State) (p i : Fin 8) :
    (s.slots[i].copyCut p → (s.loseSlot p i).attention.installFailed = some .bankChanged) ∧
      (¬ s.slots[i].copyCut p → (s.loseSlot p i).attention.installFailed = s.attention.installFailed) := by
  refine ⟨fun ⟨here, loading⟩ => ?_, fun kept => ?_⟩
  · rw [State.loseSlot_of_loading here loading]
    rfl
  · by_cases here : s.slots[i].bank = p.val
    · cases state : s.slots[i].state with
      | empty => rw [State.loseSlot_of_empty here state]
      | loading => exact absurd ⟨here, state⟩ kept
      | resident => rw [State.loseSlot_of_resident here state, State.withdraw_eq]
      | retiring => rw [State.loseSlot_of_retiring here state]
    · rw [State.loseSlot_of_elsewhere here]

/-- The presence change taken to slots that are all different. -/
theorem State.loseSlots_slot {l : List (Fin 8)} (once : l.Nodup) (s : State) (p j : Fin 8) :
    (s.loseSlots p l).slots[j] = if j ∈ l then s.slots[j].afterLoss p else s.slots[j] := by
  induction l generalizing s with
  | nil => rfl
  | cons i l ih =>
    obtain ⟨new, once⟩ := List.nodup_cons.1 once
    rw [State.loseSlots, ih once, State.loseSlot_slots]
    by_cases same : i = j
    · subst same
      rw [if_neg new, set_same, if_pos List.mem_cons_self]
    · rw [set_other _ same]
      have mem : j ∈ i :: l ↔ j ∈ l := by simp [Ne.symm same]
      simp only [mem]

theorem State.loseSlots_installFailed {l : List (Fin 8)} (once : l.Nodup) (s : State) (p : Fin 8) :
    ((s.attention.installFailed = some .bankChanged ∨ ∃ j ∈ l, s.slots[j].copyCut p) →
      (s.loseSlots p l).attention.installFailed = some .bankChanged) ∧
    ((∀ j ∈ l, ¬ s.slots[j].copyCut p) → (s.loseSlots p l).attention.installFailed = s.attention.installFailed) := by
  induction l generalizing s with
  | nil => exact ⟨fun h => h.elim (fun h => h) fun ⟨_, m, _⟩ => absurd m List.not_mem_nil, fun _ => rfl⟩
  | cons i l ih =>
    obtain ⟨new, once⟩ := List.nodup_cons.1 once
    obtain ⟨cut, kept⟩ := s.loseSlot_installFailed p i
    obtain ⟨cuts, keeps⟩ := ih once (s.loseSlot p i)
    have later (j : Fin 8) (hj : j ∈ l) : (s.loseSlot p i).slots[j] = s.slots[j] := by
      rw [State.loseSlot_slots]
      exact set_other _ (fun same : i = j => new (same ▸ hj)) _
    refine ⟨fun h => cuts ?_, fun none => ?_⟩
    · by_cases own : s.slots[i].copyCut p
      · exact .inl (cut own)
      · rcases h with h | ⟨j, m, hj⟩
        · exact .inl ((kept own).trans h)
        · rcases List.mem_cons.1 m with same | m
          · exact absurd (same ▸ hj) own
          · exact .inr ⟨j, m, by rw [later j m]; exact hj⟩
    · refine (keeps fun j m => ?_).trans (kept (none i List.mem_cons_self))
      rw [later j m]
      exact none j (List.mem_cons_of_mem i m)

end

/-! ## A store command cut short (R150, R156) -/

section
variable {s : State} {p q : Fin 8} {o n : Nat} {ws : List Word}

theorem State.cutStore_of_read (acting : s.port.phase = .acting (.read p o n)) (held : s.bus.holder = some .store) :
    s.cutStore p = s.endUnit.respond [0x0405#16] := by
  unfold State.cutStore
  rw [acting, held]
  exact if_pos rfl

theorem State.cutStore_of_write (acting : s.port.phase = .acting (.write p o ws)) (held : s.bus.holder = some .store) :
    s.cutStore p = (s.storePart p o ws).endUnit.respond [0x0405#16] := by
  unfold State.cutStore
  rw [acting, held]
  exact if_pos rfl

theorem State.cutStore_of_other (other : s.bus.holder ≠ some .store ∨
    ((∀ o n, s.port.phase ≠ .acting (.read p o n)) ∧ ∀ o ws, s.port.phase ≠ .acting (.write p o ws))) :
    s.cutStore p = s := by
  unfold State.cutStore
  split
  · next q o n acting held =>
    refine if_neg fun same => ?_
    subst same
    rcases other with h | ⟨h, -⟩
    · exact h held
    · exact h _ _ acting
  · next q o ws acting held =>
    refine if_neg fun same => ?_
    subst same
    rcases other with h | ⟨-, h⟩
    · exact h held
    · exact h _ _ acting
  · rfl

/-- A position on which no write holds the bus keeps its contents when a store command is cut short. -/
theorem State.cutStore_bank_kept (none : s.bus.holder ≠ some .store ∨ ∀ o ws, s.port.phase ≠ .acting (.write p o ws)) :
    (s.cutStore p).banks[p] = s.banks[p] := by
  unfold State.cutStore
  split
  · split <;> rfl
  · next q o ws acting held =>
    split
    · next same =>
      subst same
      rcases none with h | h
      · exact absurd held h
      · exact absurd acting (h o ws)
    · rfl
  · rfl

theorem State.cutStore_bank_other (other : q ≠ p) : (s.cutStore p).banks[q] = s.banks[q] := by
  unfold State.cutStore
  split
  · split <;> rfl
  · next a o ws _ _ =>
    split
    · next same =>
      subst same
      exact State.storePart_other (s := s) other
    · rfl
  · rfl

end

/-! ## What the parts of a presence change leave alone -/

section
variable (s : State) (p : Fin 8) (l : List (Fin 8))

theorem State.cutStore_slots : (s.cutStore p).slots = s.slots := by rw [State.cutStore_eq]
theorem State.cutStore_classes : (s.cutStore p).classes = s.classes := by rw [State.cutStore_eq]
theorem State.cutStore_table : (s.cutStore p).table = s.table := by rw [State.cutStore_eq]
theorem State.cutStore_attention : (s.cutStore p).attention = s.attention := by rw [State.cutStore_eq]
theorem State.cutStore_imaging : (s.cutStore p).imaging = s.imaging := by rw [State.cutStore_eq]

theorem State.loseSlots_banks : (s.loseSlots p l).banks = s.banks := by rw [State.loseSlots_eq]
theorem State.loseSlots_classes : (s.loseSlots p l).classes = s.classes := by rw [State.loseSlots_eq]
theorem State.loseSlots_table : (s.loseSlots p l).table = s.table := by rw [State.loseSlots_eq]
theorem State.loseSlots_attention : (s.loseSlots p l).attention =
    { s.attention with installFailed := (s.loseSlots p l).attention.installFailed } := by
  conv_lhs => rw [State.loseSlots_eq]
theorem State.loseSlots_imaging : (s.loseSlots p l).imaging =
    { s.imaging with mirror := (s.loseSlots p l).imaging.mirror } := by
  conv_lhs => rw [State.loseSlots_eq]

theorem State.cutFetch_slots : (s.cutFetch p).slots = s.slots := by rw [State.cutFetch_eq]
theorem State.cutFetch_banks : (s.cutFetch p).banks = s.banks := by rw [State.cutFetch_eq]
theorem State.cutFetch_classes : (s.cutFetch p).classes = s.classes := by rw [State.cutFetch_eq]
theorem State.cutFetch_attention : (s.cutFetch p).attention = s.attention := by rw [State.cutFetch_eq]

end

/-! ## The position, the causes and the port -/

theorem BankPosition.setSocket_socket (x : BankPosition) (k : Socket) (c : Option Memory) :
    (sensePosition (x.setSocket k c)).socket k = c := by cases k <;> rfl

theorem BankPosition.setSocket_other {x : BankPosition} {k other : Socket} (h : other ≠ k) (c : Option Memory) :
    (sensePosition (x.setSocket k c)).socket other = x.socket other := by
  cases k <;> cases other <;> first | rfl | exact absurd rfl h

section
variable (s : State) (p : Fin 8) (k : Socket) (m : Option (List (Nat × Word)))

/-- A presence change with the store command cut short, the socket sensed and the causes noted, before the slots lose their images. -/
def State.socketChanged : State := ((s.cutStore p).senseSocket p k m).noteChange p

theorem State.socketChanged_slots : (s.socketChanged p k m).slots = s.slots := s.cutStore_slots p
theorem State.socketChanged_classes : (s.socketChanged p k m).classes = s.classes := s.cutStore_classes p
theorem State.socketChanged_table : (s.socketChanged p k m).table = s.table := s.cutStore_table p
theorem State.socketChanged_imaging : (s.socketChanged p k m).imaging = s.imaging := s.cutStore_imaging p
theorem State.socketChanged_banks : (s.socketChanged p k m).banks =
    modifyAt (s.cutStore p).banks p fun x => sensePosition (x.setSocket k (m.map memoryOf)) := rfl

theorem State.noteChange_attention (s : State) (p : Fin 8) : (s.noteChange p).attention =
    { s.attention with
      cartridgeChange := addPosition s.attention.cartridgeChange p
      imageLost := if imagesAt s.slots p then addPosition s.attention.imageLost p else s.attention.imageLost } := rfl

theorem State.socketChanged_attention : (s.socketChanged p k m).attention =
    { s.attention with
      cartridgeChange := addPosition s.attention.cartridgeChange p
      imageLost := if imagesAt s.slots p then addPosition s.attention.imageLost p else s.attention.imageLost } := by
  unfold State.socketChanged
  rw [State.noteChange_attention, show ((s.cutStore p).senseSocket p k m).attention = s.attention from s.cutStore_attention p,
    show ((s.cutStore p).senseSocket p k m).slots = s.slots from s.cutStore_slots p]

theorem State.presenceChanged_eq :
    s.presenceChanged p k m = ((s.socketChanged p k m).loseSlots p slotIds).cutFetch p := rfl

theorem State.presenceChanged_bank :
    (s.presenceChanged p k m).banks[p] = sensePosition ((s.cutStore p).banks[p].setSocket k (m.map memoryOf)) := by
  rw [State.presenceChanged_eq, State.cutFetch_banks, State.loseSlots_banks, State.socketChanged_banks, modifyAt_same]

theorem State.presenceChanged_bank_other {q : Fin 8} (other : q ≠ p) : (s.presenceChanged p k m).banks[q] = s.banks[q] := by
  rw [State.presenceChanged_eq, State.cutFetch_banks, State.loseSlots_banks, State.socketChanged_banks,
    modifyAt_other _ (Ne.symm other), State.cutStore_bank_other other]

theorem slotIds_nodup : slotIds.Nodup := by decide

theorem State.presenceChanged_slot (i : Fin 8) : (s.presenceChanged p k m).slots[i] = s.slots[i].afterLoss p := by
  rw [State.presenceChanged_eq, State.cutFetch_slots, State.loseSlots_slot slotIds_nodup, if_pos (mem_slotIds i),
    State.socketChanged_slots]

theorem State.presenceChanged_attention : (s.presenceChanged p k m).attention =
    { s.attention with
      cartridgeChange := addPosition s.attention.cartridgeChange p
      imageLost := if imagesAt s.slots p then addPosition s.attention.imageLost p else s.attention.imageLost
      installFailed := (s.presenceChanged p k m).attention.installFailed } := by
  have lost := (s.socketChanged p k m).loseSlots_attention p slotIds
  rw [State.socketChanged_attention] at lost
  rw [State.presenceChanged_eq, State.cutFetch_attention]
  exact lost

theorem State.presenceChanged_installFailed :
    ((∃ i : Fin 8, s.slots[i].copyCut p) → (s.presenceChanged p k m).attention.installFailed = some .bankChanged) ∧
      ((∀ i : Fin 8, ¬ s.slots[i].copyCut p) →
        (s.presenceChanged p k m).attention.installFailed = s.attention.installFailed) := by
  have same : (s.presenceChanged p k m).attention = ((s.socketChanged p k m).loseSlots p slotIds).attention := by
    rw [State.presenceChanged_eq, State.cutFetch_attention]
  have before : (s.socketChanged p k m).attention.installFailed = s.attention.installFailed := by
    rw [State.socketChanged_attention]
  obtain ⟨cut, kept⟩ := State.loseSlots_installFailed slotIds_nodup (s.socketChanged p k m) p
  rw [s.socketChanged_slots p k m] at cut kept
  rw [same]
  exact ⟨fun ⟨i, h⟩ => cut (.inr ⟨i, mem_slotIds i, h⟩), fun none => (kept fun i _ => none i).trans before⟩

theorem imagesAt_eq_true {slots : Vector Slot 8} {p : Fin 8} : imagesAt slots p = true ↔
    ∃ i : Fin 8, slots[i].bank = p.val ∧ (slots[i].state = .resident ∨ slots[i].state = .retiring) := by
  unfold imagesAt
  rw [List.any_eq_true]
  simp only [Bool.and_eq_true, Bool.or_eq_true, decide_eq_true_eq]
  exact ⟨fun ⟨i, _, h⟩ => ⟨i, h⟩, fun ⟨i, h⟩ => ⟨i, mem_slotIds i, h⟩⟩

theorem State.presenceChanged_classes : (s.presenceChanged p k m).classes = s.classes := by
  rw [State.presenceChanged_eq, State.cutFetch_classes, State.loseSlots_classes, State.socketChanged_classes]

/-- Before the fetch is cut, the Galley Table stands and the Exposure Controller has lost mirror entries at most. -/
theorem State.slotsLost_work : ((s.socketChanged p k m).loseSlots p slotIds).table = s.table ∧
    ((s.socketChanged p k m).loseSlots p slotIds).imaging =
      { s.imaging with mirror := ((s.socketChanged p k m).loseSlots p slotIds).imaging.mirror } := by
  have lost := (s.socketChanged p k m).loseSlots_imaging p slotIds
  rw [State.socketChanged_imaging] at lost
  exact ⟨by rw [State.loseSlots_table, State.socketChanged_table], lost⟩

end

/-! ## The outline fetch (R169) -/

section
variable {s : State} {p : Fin 8} {f : Fetch}

theorem State.cutFetch_of_elsewhere (fetch : s.imaging.fetch = some f) (elsewhere : f.bank ≠ p.val) : s.cutFetch p = s := by
  unfold State.cutFetch
  rw [fetch]
  exact if_neg elsewhere

theorem State.cutFetch_of_here (fetch : s.imaging.fetch = some f) (here : f.bank = p.val) :
    s.cutFetch p = s.putFilm s.film.deliverBlank := by
  unfold State.cutFetch
  rw [fetch]
  exact if_pos here

/-- 0 words delivered for the LOAD OUTLINE outstanding: its unit entry marked in the mirror. -/
theorem Film.deliverBlank_img {v : Film} {n : Fin 64} {ws : Option (List Word)} {void : Bool}
    (out : v.img.out = some { record := .loadOutline n ws, void := void }) :
    v.deliverBlank.img = { v.img with mirror := markBlank v.img.mirror n, fetch := none, buffer := []
                                      out := some { record := .loadOutline n (some []), void := void } } := by
  have entry : v.img.loadEntry = some n := by
    unfold Imaging.loadEntry
    rw [out]
  unfold Film.deliverBlank
  rw [Film.flagImageLost_img]
  dsimp only [Film.withImg]
  rw [entry]
  unfold Imaging.deliver
  rw [out]
  rfl

theorem Film.deliverBlank_table {v : Film} {g : Fin 32} (walk : v.img.galley = some g) :
    v.deliverBlank.table = v.table.raiseFlag g .imageLost := by
  unfold Film.deliverBlank Film.flagImageLost
  dsimp only [Film.withImg, Imaging.deliver]
  rw [walk]

theorem markBlank_blank {l : List MirrorEntry} {n : Fin 64} : ∀ e ∈ markBlank l n, e.entry = n → e.blank = true := by
  intro e he entry
  obtain ⟨a, -, rfl⟩ := List.mem_map.1 he
  split
  · rfl
  · next other =>
    rw [if_neg other] at entry
    exact absurd entry other

end

/-- What a presence change leaves of the outline fetch, the unit SENDING. -/
theorem State.settle_presenceChanged_fetch {s : State} {p : Fin 8} {f : Fetch} (k : Socket)
    (m : Option (List (Nat × Word))) (fetch : s.imaging.fetch = some f) (sending : s.imaging.unit = .sending) :
    let t := (s.presenceChanged p k m).settle
    (f.bank ≠ p.val → t.imaging.fetch = some f ∧ t.imaging.out = s.imaging.out) ∧
      ∀ n void, f.bank = p.val → s.imaging.out = some { record := .loadOutline n none, void := void } →
        t.imaging.fetch = none ∧ t.imaging.out = some { record := .loadOutline n (some []), void := void } ∧
        t.bus.holder ≠ some .fetcher ∧ (∀ e ∈ t.imaging.mirror, e.entry = n → e.blank = true) ∧
        ∀ g r, s.imaging.galley = some g → s.table.records[g] = some r →
          ∃ r', t.table.records[g] = some r' ∧ hasFlag r'.flags .imageLost = true ∧ r'.lines = r.lines ∧
            r'.state = r.state := by
  obtain ⟨table, imaging⟩ := s.slotsLost_work p k m
  rw [State.presenceChanged_eq]
  generalize (s.socketChanged p k m).loseSlots p slotIds = d at table imaging
  have dFetch : d.imaging.fetch = some f := by rw [imaging]; exact fetch
  have dUnit : d.imaging.unit = .sending := by rw [imaging]; exact sending
  refine ⟨fun elsewhere => ?_, fun n void here out => ?_⟩
  · rw [State.cutFetch_of_elsewhere dFetch elsewhere]
    rw [State.settle_imaging_same (by rw [dUnit]; decide) (by rw [dUnit]; decide), imaging]
    exact ⟨fetch, rfl⟩
  · have dOut : d.film.img.out = some { record := .loadOutline n none, void := void } := by
      show d.imaging.out = _
      rw [imaging]
      exact out
    have blank := Film.deliverBlank_img dOut
    rw [State.cutFetch_of_here dFetch here]
    have unit : (d.putFilm d.film.deliverBlank).imaging.unit = .sending := by
      rw [State.putFilm_imaging, blank]
      exact dUnit
    have same := State.settle_imaging_same (s := d.putFilm d.film.deliverBlank) (by rw [unit]; decide) (by rw [unit]; decide)
    have marks := State.settle_marksTaken_same (s := d.putFilm d.film.deliverBlank) (by rw [unit]; decide) (by rw [unit]; decide)
    refine ⟨?_, ?_, State.settle_holder_ne ?_, ?_, fun g r walk hr => ?_⟩
    · rw [same, State.putFilm_imaging, blank]
    · rw [same, State.putFilm_imaging, blank]
    · unfold State.wantsBus
      rw [State.putFilm_imaging, blank]
      rfl
    · rw [same, State.putFilm_imaging, blank]
      exact markBlank_blank
    · have dWalk : d.film.img.galley = some g := by
        show d.imaging.galley = _
        rw [imaging]
        exact walk
      have flagged := OnlyFlags.raise (t := d.table) (g := g) (by rw [table]; exact hr) .imageLost
      rw [State.putFilm_table, Film.deliverBlank_table dWalk] at marks
      obtain ⟨mark, record⟩ := marks.record g _ flagged.record
      refine ⟨_, record, r.hasFlag_raised _, ?_, ?_⟩
      · show (r.raiseFlag .imageLost).lines = _
        rw [flagged.rest]
      · show (r.raiseFlag .imageLost).state = _
        rw [flagged.rest]

theorem socketChanges_iff (x : BankPosition) (k : Socket) (m : Option (List (Nat × Word))) :
    socketChanges x k m = true ↔ (x.socket k).isSome ≠ m.isSome := by
  unfold socketChanges
  rw [bne_iff_ne]

/-- Settles O17: the parts of the event, each of which leaves the others alone. -/
theorem presenceChangeWithdrawsImages : Obligations.PresenceChangeWithdrawsImages := by
  unfold Obligations.PresenceChangeWithdrawsImages
  intro s p k m
  refine ⟨fun same => ?_, fun change => ?_⟩
  · rw [exec_presenceChange, State.changePresence_of_none]
    rw [Bool.eq_false_iff, Ne, socketChanges_iff]
    exact not_not.2 same
  · have attention := s.presenceChanged_attention p k m
    obtain ⟨cut, notCut⟩ := s.presenceChanged_installFailed p k m
    refine ⟨(s.presenceChanged p k m).settle, by rw [exec_presenceChange, State.changePresence_of_change ((socketChanges_iff _ _ _).2 change)],
      ?_, ?_, fun kept other differs => ?_, fun q other => ?_, fun i => ?_, ?_, fun affected => ?_, fun none => ?_,
      fun ⟨i, here, loading⟩ => ?_, fun none => ?_, fun held ⟨o, n, acting⟩ => ?_, fun o ws held acting => ?_,
      fun other => ?_, fun f fetch sending => State.settle_presenceChanged_fetch k m fetch sending, ?_⟩
    · rw [State.settle_banks, State.presenceChanged_bank, BankPosition.setSocket_socket]
    · rw [State.settle_banks, State.presenceChanged_bank]
      exact sensedProtection_iff _
    · rw [State.settle_banks, State.presenceChanged_bank, BankPosition.setSocket_other differs, State.cutStore_bank_kept kept]
    · rw [State.settle_banks, State.presenceChanged_bank_other _ _ _ _ other]
    · rw [State.settle_slots, State.presenceChanged_slot]
      rfl
    · rw [State.settle_attention, attention]
      rfl
    · rw [State.settle_attention, attention]
      exact if_pos (imagesAt_eq_true.2 affected)
    · rw [State.settle_attention, attention]
      refine if_neg fun some => ?_
      obtain ⟨i, here, state⟩ := imagesAt_eq_true.1 some
      exact state.elim (none i here).1 (none i here).2
    · rw [State.settle_installFailed]
      exact cut ⟨i, here, loading⟩
    · rw [State.settle_installFailed]
      exact notCut fun i ⟨here, loading⟩ => none i here loading
    · have port : (s.presenceChanged p k m).port = { s.port with phase := .responding [0x0405#16] } := by
        rw [State.presenceChanged_port, State.cutStore_of_read acting held]
        rfl
      refine ⟨by rw [State.settle_port, port], State.settle_holder_ne ?_⟩
      unfold State.wantsBus
      rw [port]
    · have port : (s.presenceChanged p k m).port = { s.port with phase := .responding [0x0405#16] } := by
        rw [State.presenceChanged_port, State.cutStore_of_write acting held, State.storePart_eq]
        rfl
      refine ⟨by rw [State.settle_port, port], State.settle_holder_ne ?_, fun b cartridge board wf inBank => ?_⟩
      · unfold State.wantsBus
        rw [port]
      · subst cartridge
        rw [State.settle_banks, State.presenceChanged_bank, State.cutStore_of_write acting held]
        exact State.storePart_board board wf inBank
    · rw [State.settle_port, State.presenceChanged_port, State.cutStore_of_other other]
    · rw [State.settle_classes, State.presenceChanged_classes]

end Sys2Proof.Machine

/-! Galley commands: KILL, RESUME and CLASS from a link and from the library (R53, R56, R57, R123 to R126). -/

namespace Sys2Proof.Machine

/-! ## A header completed in an event of another kind (R41, R57, R111) -/

/-- The Setter's work changed the setting context, and gave at most one new record; every record there was stays. -/
structure Bench.Opens (b c : Bench) : Prop where
  link : c.link = { b.link with setting := c.link.setting }
  slots : c.slots = b.slots
  records : ∀ (h : Fin 32) (r : Galley), b.table.records[h] = some r → c.table.records[h] = some r
  freeLines : c.table.freeLines = b.table.freeLines
  eligible : c.table.eligible = b.table.eligible

section
variable {b c d : Bench}

theorem Bench.Opens.of_setting (f : Setting → Setting) : Bench.Opens b (b.withSetting f) :=
  ⟨rfl, rfl, fun _ _ h => h, rfl, rfl⟩

theorem Bench.Opens.trans (x : Bench.Opens b c) (y : Bench.Opens c d) : Bench.Opens b d where
  link := by rw [y.link, x.link]
  slots := y.slots.trans x.slots
  records h r hr := y.records h r (x.records h r hr)
  freeLines := y.freeLines.trans x.freeLines
  eligible := y.eligible.trans x.eligible

theorem Bench.raiseIf_link (b : Bench) (k : Bool) (f : GalleyFlag) : (b.raiseIf k f).link = b.link := by
  unfold Bench.raiseIf Bench.raise
  repeat' split
  all_goals rfl

theorem Bench.raiseIf_slots (b : Bench) (k : Bool) (f : GalleyFlag) : (b.raiseIf k f).slots = b.slots := by
  unfold Bench.raiseIf Bench.raise
  repeat' split
  all_goals rfl

/-- A flag raised changes the current galley's record alone. -/
theorem Bench.raiseIf_table {g : Fin 32} (galley : b.link.setting.galley = some g) (k : Bool) (f : GalleyFlag) :
    (∀ h : Fin 32, h ≠ g → (b.raiseIf k f).table.records[h] = b.table.records[h]) ∧
      (b.raiseIf k f).table.freeLines = b.table.freeLines ∧ (b.raiseIf k f).table.eligible = b.table.eligible := by
  unfold Bench.raiseIf Bench.raise
  rw [galley]
  dsimp only
  split
  · refine ⟨fun h hh => GalleyTable.modify_other _ (Ne.symm hh) _, ?_, ?_⟩
    · show (b.table.modify g _).freeLines = _
      rw [GalleyTable.modify_eq]
    · show (b.table.modify g _).eligible = _
      rw [GalleyTable.modify_eq]
  · exact ⟨fun _ _ => rfl, rfl, rfl⟩

theorem Bench.Opens.allocate {g : Fin 32} (free : b.table.records[g] = none) :
    Bench.Opens b (b.allocate g) ∧ (b.allocate g).parser = .inGalley := by
  unfold Bench.allocate
  dsimp only
  generalize newGalley b.id b.link.setting.header b.link.setting.heldFlags = new
  generalize (headerContext b.slots b.link.setting.header).font.isNone = flagged
  generalize headerContext b.slots b.link.setting.header = ctx
  have opened : Bench.Opens b { b.withSetting fun x =>
        { x with parser := .inGalley, galley := some g, header := [], heldFlags := 0#16, ctx := some ctx, stack := [],
                 overflow := 0, extraLead := 0, buffer := [], points := [], line := emptyLine, ladder := 0,
                 held := none } with
      table := b.table.allocate g new } := by
    refine ⟨rfl, rfl, fun h r hr => ?_, rfl, rfl⟩
    have other : g ≠ h := by
      rintro rfl
      rw [free] at hr
      cases hr
    exact (set_other _ other _).trans hr
  refine ⟨⟨?_, ?_, fun h r hr => ?_, ?_, ?_⟩, ?_⟩
  · rw [Bench.raiseIf_link]; rfl
  · rw [Bench.raiseIf_slots]; rfl
  · have other : h ≠ g := by
      rintro rfl
      rw [free] at hr
      cases hr
    exact ((Bench.raiseIf_table (g := g) rfl _ _).1 h other).trans (opened.records h r hr)
  · exact (Bench.raiseIf_table (g := g) rfl _ _).2.1
  · exact (Bench.raiseIf_table (g := g) rfl _ _).2.2
  · unfold Bench.parser
    rw [Bench.raiseIf_link]
    rfl

theorem Bench.completeHeader_opens (b : Bench) :
    Bench.Opens b b.completeHeader ∧ (b.completeHeader.parser = .inGalley ∨ b.completeHeader.parser = .waitRecord) := by
  unfold Bench.completeHeader
  dsimp only
  split
  · next g lowest =>
    obtain ⟨opened, parser⟩ := Bench.Opens.allocate (GalleyTable.lowestFree_free lowest)
    exact ⟨(Bench.Opens.of_setting _).trans opened, .inl parser⟩
  · exact ⟨(Bench.Opens.of_setting _).trans (.of_setting _), .inr rfl⟩

/-- A marker due on the line of a galley killed acts on the header that its GALLEY START opens (R57, log 33). -/
theorem Bench.actDueMarker_header (hp : b.parser = .header) :
    Bench.Opens b b.actDueMarker ∧ (b.link.setting.markerDue = false → b.actDueMarker = b) ∧
      (b.link.setting.markerDue = true → b.actDueMarker.parser = .inGalley ∨ b.actDueMarker.parser = .waitRecord) := by
  unfold Bench.actDueMarker
  cases due : b.link.setting.markerDue with
  | false => exact ⟨⟨rfl, rfl, fun _ _ h => h, rfl, rfl⟩, fun _ => rfl, fun h => by cases h⟩
  | true =>
    have e : b.actMarker = (b.withSetting fun x => { x with markerDue := false }).damageHeader := by
      unfold Bench.actMarker
      dsimp only
      rw [show (b.withSetting fun x => { x with markerDue := false }).parser = .header from hp]
    rw [if_pos rfl, e]
    unfold Bench.damageHeader
    obtain ⟨opened, parser⟩ := Bench.completeHeader_opens
      ((b.withSetting fun x => { x with markerDue := false }).withSetting fun s =>
        let cut := decide (s.header.length < headerWords)
        { s with header := s.header ++ missingFields s.header.length
                 heldFlags := addFlagIf cut (addFlagIf cut (addFlag s.heldFlags .damaged) .charError) .clamped })
    exact ⟨((Bench.Opens.of_setting _).trans (.of_setting _)).trans opened, fun h => (by cases h), fun _ => parser⟩

end

end Sys2Proof.Machine

/-! A kill of a galley, from the library and from its link (R56, R57, R123, R126). -/

namespace Sys2Proof.Machine

/-! ## The parser at a kill (R56) -/

/-- A line is held while the parser waits for a record for it. -/
def Setting.waits (x : Setting) : Prop := x.parser = .waitLine ∨ x.parser = .waitLimit

/-- The line held is that of a galley cut off by a GALLEY START. -/
def Setting.truncated (x : Setting) : Prop := x.held.map (·.rest.brk) = some .galleyStart

/-- The parser in SKIP for the rest of a galley that has been killed (R56). -/
def Setting.skipped (x : Setting) : Setting :=
  { x.giveUpGalley with parser := .skip, markerDue := false
                        pending := x.pending.map fun p => { p with passOver := true } }

/-- The parser at the header of the galley whose GALLEY START was waiting (R56). -/
def Setting.opened (x : Setting) : Setting :=
  { x.giveUpGalley with parser := .header, header := [], heldFlags := 0#16, pending := none }

section
variable {b : Bench}

theorem Bench.killParser_of_inGalley (h : b.parser = .inGalley) : b.killParser = b.withSetting Setting.skipped := by
  unfold Bench.killParser
  dsimp only
  rw [show b.link.setting.parser = .inGalley from h]
  rfl

theorem Bench.killParser_of_inMeasure (h : b.parser = .inMeasure) :
    b.killParser = b.withSetting fun x => { x.giveUpGalley with ret := .skip } := by
  unfold Bench.killParser
  dsimp only
  rw [show b.link.setting.parser = .inMeasure from h]

theorem Bench.killParser_of_waitMeasure (h : b.parser = .waitMeasure) :
    b.killParser = b.withSetting fun x => { x.giveUpGalley with resume := .skip } := by
  unfold Bench.killParser
  dsimp only
  rw [show b.link.setting.parser = .waitMeasure from h]

theorem Bench.killParser_of_waits (h : b.link.setting.waits) (whole : ¬ b.link.setting.truncated) :
    b.killParser = b.withSetting Setting.skipped := by
  unfold Bench.killParser
  dsimp only
  rcases h with h | h
  · rw [h]
    exact if_neg whole
  · rw [h]
    exact if_neg whole

theorem Bench.killParser_of_truncated (h : b.link.setting.waits) (cut : b.link.setting.truncated) :
    b.killParser = (b.withSetting Setting.opened).actDueMarker := by
  unfold Bench.killParser
  dsimp only
  rcases h with h | h
  · rw [h]
    exact if_pos cut
  · rw [h]
    exact if_pos cut

theorem Bench.killParser_of_idle (h : b.parser = .idle ∨ b.parser = .header ∨ b.parser = .skip ∨ b.parser = .waitRecord) :
    b.killParser = b := by
  unfold Bench.killParser
  dsimp only
  rcases h with h | h | h | h <;> rw [show b.link.setting.parser = _ from h]

end

/-- What a kill leaves of the setting context of the link that was setting the galley (R56, R57, log 33). -/
structure ParserKilled (x y : Setting) : Prop where
  cleared : (x.parser = .inMeasure ∨ x.parser = .waitMeasure) ∨ x.parser = .inGalley ∨
      (x.waits ∧ (x.truncated → x.markerDue = false)) →
    y.galley = none ∧ y.ctx = none ∧ y.stack = [] ∧ y.overflow = 0 ∧ y.extraLead = 0 ∧ y.buffer = [] ∧
      y.points = [] ∧ y.line = emptyLine ∧ y.held = none
  skips : x.parser = .inGalley ∨ (x.waits ∧ ¬ x.truncated) →
    y.parser = .skip ∧ y.pending = x.pending.map fun p => { p with passOver := true }
  opens : x.waits → x.truncated → x.markerDue = false →
    y.parser = .header ∧ y.header = [] ∧ y.heldFlags = 0#16 ∧ y.pending = none
  marked : x.waits → x.truncated → x.markerDue = true → y.parser = .inGalley ∨ y.parser = .waitRecord
  measures : x.parser = .inMeasure → y.parser = .inMeasure ∧ y.ret = .skip ∧ y.pending = x.pending
  waitsMeasure : x.parser = .waitMeasure → y.parser = .waitMeasure ∧ y.resume = .skip ∧ y.pending = x.pending

section
variable {x y : Setting}

theorem Setting.not_waits (h : x.parser = .inMeasure ∨ x.parser = .waitMeasure ∨ x.parser = .inGalley ∨ x.parser = .idle ∨
    x.parser = .header ∨ x.parser = .skip ∨ x.parser = .waitRecord) : ¬ x.waits := by
  rintro (w | w) <;> rw [w] at h <;> simp at h

theorem ParserKilled.skipped (h : x.parser = .inGalley ∨ (x.waits ∧ ¬ x.truncated)) : ParserKilled x x.skipped where
  cleared _ := ⟨rfl, rfl, rfl, rfl, rfl, rfl, rfl, rfl, rfl⟩
  skips _ := ⟨rfl, rfl⟩
  opens w cut _ := by
    rcases h with h | ⟨-, whole⟩
    · exact absurd w (Setting.not_waits (.inr (.inr (.inl h))))
    · exact absurd cut whole
  marked w cut _ := by
    rcases h with h | ⟨-, whole⟩
    · exact absurd w (Setting.not_waits (.inr (.inr (.inl h))))
    · exact absurd cut whole
  measures e := by
    rcases h with h | ⟨w, -⟩
    · rw [h] at e; cases e
    · exact absurd w (Setting.not_waits (.inl e))
  waitsMeasure e := by
    rcases h with h | ⟨w, -⟩
    · rw [h] at e; cases e
    · exact absurd w (Setting.not_waits (.inr (.inl e)))

/-- A parser that sets no galley has nothing to give up. -/
theorem ParserKilled.of_idle (h : x.parser = .idle ∨ x.parser = .header ∨ x.parser = .skip ∨ x.parser = .waitRecord) :
    ParserKilled x y := by
  have still : ¬ x.waits := Setting.not_waits (.inr (.inr (.inr h)))
  have other : x.parser ≠ .inMeasure ∧ x.parser ≠ .waitMeasure ∧ x.parser ≠ .inGalley := by
    rcases h with h | h | h | h <;> rw [h] <;> decide
  obtain ⟨measure, waitMeasure, inGalley⟩ := other
  refine ⟨fun e => ?_, fun e => ?_, fun w => absurd w still, fun w => absurd w still, fun e => absurd e measure,
    fun e => absurd e waitMeasure⟩
  · rcases e with (e | e) | e | ⟨w, -⟩
    · exact absurd e measure
    · exact absurd e waitMeasure
    · exact absurd e inGalley
    · exact absurd w still
  · rcases e with e | ⟨w, -⟩
    · exact absurd e inGalley
    · exact absurd w still

end

/-- The parser at a kill: its link's setting context, and the record that a marker due on the held line may bring. -/
theorem Bench.killParser_killed (b : Bench) :
    ParserKilled b.link.setting b.killParser.link.setting ∧ Bench.Opens b b.killParser ∧
      (b.link.setting.markerDue = false → b.killParser.table = b.table) := by
  have quiet (f : Setting → Setting) (e : b.killParser = b.withSetting f) (k : ParserKilled b.link.setting (f b.link.setting)) :
      ParserKilled b.link.setting b.killParser.link.setting ∧ Bench.Opens b b.killParser ∧
        (b.link.setting.markerDue = false → b.killParser.table = b.table) := by
    rw [e]
    exact ⟨k, .of_setting f, fun _ => rfl⟩
  have waiting (w : b.link.setting.waits) :
      ParserKilled b.link.setting b.killParser.link.setting ∧ Bench.Opens b b.killParser ∧
        (b.link.setting.markerDue = false → b.killParser.table = b.table) := by
    by_cases cut : b.link.setting.truncated
    · obtain ⟨opened, none, due⟩ := Bench.actDueMarker_header (b := b.withSetting Setting.opened) rfl
      rw [Bench.killParser_of_truncated w cut]
      have still (c : ParserState) (h : c ≠ .waitLine ∧ c ≠ .waitLimit) : b.link.setting.parser ≠ c := fun e => by
        rcases w with w | w
        · exact h.1 (e.symm.trans w)
        · exact h.2 (e.symm.trans w)
      refine ⟨⟨fun h => ?_, fun h => ?_, fun _ _ undue => ?_, fun _ _ isDue => due isDue,
        fun e => absurd e (still _ (by decide)), fun e => absurd e (still _ (by decide))⟩, (Bench.Opens.of_setting _).trans opened,
        fun undue => ?_⟩
      · rcases h with (e | e) | e | ⟨-, undue⟩
        · exact absurd e (still _ (by decide))
        · exact absurd e (still _ (by decide))
        · exact absurd e (still _ (by decide))
        · rw [none (undue cut)]
          exact ⟨rfl, rfl, rfl, rfl, rfl, rfl, rfl, rfl, rfl⟩
      · rcases h with e | ⟨-, whole⟩
        · exact absurd e (still _ (by decide))
        · exact absurd cut whole
      · rw [none undue]
        exact ⟨rfl, rfl, rfl, rfl⟩
      · rw [none undue]
        rfl
    · exact quiet _ (Bench.killParser_of_waits w cut) (.skipped (.inr ⟨w, cut⟩))
  have idle (h : b.parser = .idle ∨ b.parser = .header ∨ b.parser = .skip ∨ b.parser = .waitRecord) :=
    quiet (fun x => x) (Bench.killParser_of_idle h) (.of_idle h)
  cases hp : b.parser with
  | idle => exact idle (.inl hp)
  | header => exact idle (.inr (.inl hp))
  | skip => exact idle (.inr (.inr (.inl hp)))
  | waitRecord => exact idle (.inr (.inr (.inr hp)))
  | inGalley => exact quiet _ (Bench.killParser_of_inGalley hp) (.skipped (.inl hp))
  | waitLine => exact waiting (.inl hp)
  | waitLimit => exact waiting (.inr hp)
  | inMeasure =>
    have hx : b.link.setting.parser = .inMeasure := hp
    have still : ¬ b.link.setting.waits := Setting.not_waits (.inl hx)
    refine quiet _ (Bench.killParser_of_inMeasure hp) ⟨fun _ => ⟨rfl, rfl, rfl, rfl, rfl, rfl, rfl, rfl, rfl⟩, fun e => ?_,
      fun w => absurd w still, fun w => absurd w still, fun _ => ⟨hx, rfl, rfl⟩, fun e => ?_⟩
    · rcases e with e | ⟨w, -⟩
      · rw [hx] at e; cases e
      · exact absurd w still
    · rw [hx] at e; cases e
  | waitMeasure =>
    have hx : b.link.setting.parser = .waitMeasure := hp
    have still : ¬ b.link.setting.waits := Setting.not_waits (.inr (.inl hx))
    refine quiet _ (Bench.killParser_of_waitMeasure hp) ⟨fun _ => ⟨rfl, rfl, rfl, rfl, rfl, rfl, rfl, rfl, rfl⟩, fun e => ?_,
      fun w => absurd w still, fun w => absurd w still, fun e => ?_, fun _ => ⟨hx, rfl, rfl⟩⟩
    · rcases e with e | ⟨w, -⟩
      · rw [hx] at e; cases e
      · exact absurd w still
    · rw [hx] at e; cases e

/-! ## The galley killed (R123) -/

section
variable {b : Bench} {g : Fin 32} {r : Galley}

theorem Bench.killGalley_of_current (hr : b.table.records[g] = some r) (galley : b.link.setting.galley = some g)
    (live : r.ended = false) : b.killGalley g = ({ b with table := b.table.kill g .killed } : Bench).killParser := by
  unfold Bench.killGalley
  simp [-Fin.getElem_fin, hr, galley, live]

theorem Bench.killGalley_of_other (hr : b.table.records[g] = some r)
    (other : b.link.setting.galley ≠ some g ∨ r.ended = true) :
    b.killGalley g = { b with table := b.table.kill g .killed } := by
  unfold Bench.killGalley
  rcases other with h | h
  · simp [-Fin.getElem_fin, h]
  · simp [-Fin.getElem_fin, hr, h]

/-- The Galley Table and the link after a kill by the link that owns the galley. -/
theorem Bench.killGalley_spec (hr : b.table.records[g] = some r) (live : r.state ≠ .done) :
    (b.killGalley g).link = { b.link with setting := (b.killGalley g).link.setting } ∧ (b.killGalley g).slots = b.slots ∧
    (b.killGalley g).table.records[g] = (b.table.kill g .killed).records[g] ∧
    (b.killGalley g).table.freeLines = (b.table.kill g .killed).freeLines ∧
    (b.killGalley g).table.eligible = (b.table.kill g .killed).eligible ∧
    (b.link.setting.markerDue = false → (b.killGalley g).table = b.table.kill g .killed) ∧
    (b.link.setting.galley ≠ some g ∨ r.ended = true → (b.killGalley g).link = b.link) ∧
    (b.link.setting.galley = some g → r.ended = false →
      ParserKilled b.link.setting (b.killGalley g).link.setting) := by
  have killed := GalleyTable.kill_spec hr live
  obtain ⟨q, hq⟩ : ∃ q, (b.table.kill g .killed).records[g] = some q := by
    by_cases exposing : r.state = .exposing
    · exact ⟨_, (killed.exposing exposing).1⟩
    · exact ⟨_, (killed.stored exposing).1⟩
  by_cases current : b.link.setting.galley = some g ∧ r.ended = false
  · obtain ⟨galley, open_⟩ := current
    obtain ⟨parser, opens, same⟩ := ({ b with table := b.table.kill g .killed } : Bench).killParser_killed
    rw [Bench.killGalley_of_current hr galley open_]
    refine ⟨opens.link, opens.slots, (opens.records g q hq).trans hq.symm, opens.freeLines, opens.eligible, same, fun other => ?_,
      fun _ _ => parser⟩
    rcases other with other | other
    · exact absurd galley other
    · rw [open_] at other
      cases other
  · have other : b.link.setting.galley ≠ some g ∨ r.ended = true := by
      by_contra h
      rw [not_or, not_not, Bool.not_eq_true] at h
      exact current h
    rw [Bench.killGalley_of_other hr other]
    exact ⟨rfl, rfl, rfl, rfl, rfl, fun _ => rfl, fun _ => rfl, fun galley open_ => absurd ⟨galley, open_⟩ current⟩

end

/-! ## The library's galley commands (R126) -/

section
variable {t : GalleyTable} {s : State} {g : Fin 32} {r : Galley} {n : Nat}

theorem GalleyTable.live_of_record (named : n = g.val) (hr : t.records[g] = some r) (live : r.state ≠ .done) :
    t.live n = some (g, r) := by
  subst named
  unfold GalleyTable.live
  rw [dif_pos g.isLt]
  have found : t.records[g.val] = some r := hr
  simp only [found]
  exact if_neg live

theorem GalleyTable.live_of_bad (bad : 31 < n ∨ ∃ g : Fin 32, n = g.val ∧
    (t.records[g] = none ∨ ∃ r, t.records[g] = some r ∧ r.state = .done)) : t.live n = none := by
  unfold GalleyTable.live
  rcases bad with high | ⟨g, named, free | ⟨r, hr, done⟩⟩
  · exact dif_neg (by omega)
  · subst named
    rw [dif_pos g.isLt]
    have found : t.records[g.val] = none := free
    simp only [found]
  · subst named
    rw [dif_pos g.isLt]
    have found : t.records[g.val] = some r := hr
    simp only [found]
    exact if_pos done

end

end Sys2Proof.Machine

/-! The galley commands settled: their effect on the galley, on its link, and their refusal (R53, R123 to R126). -/

namespace Sys2Proof.Machine

/-! ## Resume and class on the Galley Table (R118, R124, R125) -/

section
variable {t : GalleyTable} {g : Fin 32} {r : Galley}

theorem GalleyTable.resume_of_other (hr : t.records[g] = some r) (other : r.state ≠ .failed) : t.resume g = t := by
  unfold GalleyTable.resume
  simp only [hr]
  exact if_neg other

theorem GalleyTable.resume_of_failed (hr : t.records[g] = some r) (failed : r.state = .failed) (off : g ∉ t.eligible) :
    t.resume g = { t with records := t.records.set g (some r.resumed)
                          eligible := if r.cls = 0 then t.eligible else t.eligible ++ [g] } := by
  have e : t.resume g = (t.modify g Galley.resumed).joinEligible g := by
    unfold GalleyTable.resume
    simp only [hr]
    exact if_pos failed
  rw [e, GalleyTable.modify_of_some hr, GalleyTable.joinEligible_eq (r := r.resumed) (set_same _ _ _)]
  have cls : r.resumed.cls = r.cls := rfl
  by_cases zero : r.cls = 0
  · rw [if_neg (fun h => h.1 (cls.trans zero)), if_pos zero]
  · rw [if_pos ⟨fun h => zero (cls.symm.trans h), off⟩, if_neg zero]

/-- The eligible list after a class change of a galley on it or fit for it (R118, R125). -/
def GalleyTable.eligibleOf (t : GalleyTable) (g : Fin 32) (r : Galley) (c : Nat) : List (Fin 32) :=
  if r.state = .pressed ∨ r.state = .set then
    (if c = 0 then t.eligible.filter (· ≠ g) else if g ∈ t.eligible then t.eligible else t.eligible ++ [g])
  else t.eligible

theorem GalleyTable.setClass_eq (hr : t.records[g] = some r) (live : r.state ≠ .done) (c : Nat) :
    t.setClass g c = { t with records := t.records.set g (some { r with cls := c }), eligible := t.eligibleOf g r c } := by
  have e : t.setClass g c =
      let u : GalleyTable := { t with records := t.records.set g (some { r with cls := c }) }
      if r.state = .pressed ∨ r.state = .set then (if c = 0 then u.leaveEligible g else u.joinEligible g) else u := by
    unfold GalleyTable.setClass
    simp only [hr, GalleyTable.modify_of_some hr]
    exact if_neg live
  rw [e]
  dsimp only
  unfold GalleyTable.eligibleOf
  by_cases waiting : r.state = .pressed ∨ r.state = .set
  · rw [if_pos waiting, if_pos waiting]
    by_cases zero : c = 0
    · rw [if_pos zero, if_pos zero]
      rfl
    · rw [if_neg zero, if_neg zero, GalleyTable.joinEligible_eq (r := { r with cls := c }) (set_same _ _ _)]
      by_cases on : g ∈ t.eligible
      · rw [if_neg (fun h => h.2 on), if_pos on]
      · rw [if_pos ⟨zero, on⟩, if_neg on]
  · rw [if_neg waiting, if_neg waiting]

end

/-! ## The turn that takes a command's last parameter (R53, R117) -/

section
variable {s : State} {i : Fin 4} {code : Code} {params : List (Option Word)} {last : Option Word} {drop : Nat}
  {rest : List RingEntry}

/-- The Setter's view of a link with the entry taken and no code pending any more. -/
def Bench.commanded (b : Bench) (drop : Nat) (rest : List RingEntry) : Bench :=
  (b.taken drop rest).withSetting fun x => { x with pending := none }

theorem Bench.takeParam_command {b : Bench} (hp : b.parser = .idle ∨ b.parser = .inGalley ∨ b.parser = .skip)
    (command : isCommand code = true) (whole : paramCount code ≤ (params ++ [last]).length) :
    b.takeParam { code := code, params := params, passOver := false } last =
      (b.withSetting fun x => { x with pending := none }).galleyCommand code (params ++ [last]) := by
  have cmd : code = .kill ∨ code = .resume ∨ code = .class := by simpa [isCommand, or_assoc] using command
  have given : ((b.withSetting fun x => { x with pending := none }).actParams code (params ++ [last])) =
      (b.withSetting fun x => { x with pending := none }).galleyCommand code (params ++ [last]) := by
    rcases cmd with rfl | rfl | rfl <;> rfl
  unfold Bench.takeParam
  simp only [whole, decide_true, if_true, Bool.false_eq_true, if_false, command, Bool.true_and]
  rcases hp with h | h | h
  · rw [show (b.withSetting fun x => { x with pending := none }).parser = .idle from h]
  · rw [show (b.withSetting fun x => { x with pending := none }).parser = .inGalley from h]
    exact given
  · rw [show (b.withSetting fun x => { x with pending := none }).parser = .skip from h]

/-- A turn in which the parser takes the last parameter of a galley command. -/
theorem CommandTurn.exec_eq (h : CommandTurn s i code params last drop rest) (command : isCommand code = true)
    (whole : paramCount code ≤ (params ++ [last]).length) :
    exec .setterTurn s = .next (State.settle { s.putBench
      (((s.bench i).commanded drop rest).galleyCommand code (params ++ [last])) with rotation := i + 1 }) := by
  have parser : ((s.bench i).taken drop rest).parser = .idle ∨ ((s.bench i).taken drop rest).parser = .inGalley ∨
      ((s.bench i).taken drop rest).parser = .skip := h.parser
  have pending : ((s.bench i).taken drop rest).link.setting.pending =
      some { code := code, params := params, passOver := false } := h.pending
  have noWait : (s.bench i).measureMustWait { code := last, marker := false, drop := drop } = false := by
    unfold Bench.measureMustWait
    rw [show (s.bench i).link.setting.pending = _ from h.pending]
    simp
  have five : (s.bench i).parser = .idle ∨ (s.bench i).parser = .header ∨ (s.bench i).parser = .inGalley ∨
      (s.bench i).parser = .skip ∨ (s.bench i).parser = .inMeasure := by
    rcases h.parser with e | e | e
    · exact .inl e
    · exact .inr (.inr (.inl e))
    · exact .inr (.inr (.inr (.inl e)))
  have dealt : ((s.bench i).taken drop rest).dealWord last =
      ((s.bench i).commanded drop rest).galleyCommand code (params ++ [last]) := by
    have outside : ((s.bench i).taken drop rest).dealWord last = ((s.bench i).taken drop rest).dealOutsideHeader last := by
      unfold Bench.dealWord
      rcases parser with e | e | e <;> rw [e]
    rw [outside]
    unfold Bench.dealOutsideHeader
    rw [pending]
    exact Bench.takeParam_command parser command whole
  rw [exec_setterTurn h.turn (Bench.turn_word h.ring five noWait), dealt]

/-- A word taken from the ring changes the ring, the ready output and the stray count of the receiver, and then the
setting context. -/
theorem Bench.commanded_frame (s : State) (i : Fin 4) (drop : Nat) (rest : List RingEntry) :
    let b := (s.bench i).commanded drop rest
    b.link.rx = { s.links[i].rx with ring := rest, readyOut := b.link.rx.readyOut, stray := b.link.rx.stray } ∧
      b.link.tx = s.links[i].tx ∧ b.link.measure = s.links[i].measure ∧
      b.link.setting = { s.links[i].setting with pending := none } ∧
      b.link.rx.stray = strayAfter s i drop 0 := by
  refine ⟨rfl, rfl, rfl, rfl, ?_⟩
  unfold strayAfter
  rfl

end

end Sys2Proof.Machine

/-! The obligations about galley commands (R53, R123 to R126). -/

namespace Sys2Proof.Machine

section
variable {s : State} {i : Fin 4} {code : Code} {params : List (Option Word)} {last : Option Word} {drop : Nat}
  {rest : List RingEntry}

/-- A turn whose work on its link left slots, transmitter and receiver as the taking of the entry left them. -/
theorem TurnFrame.of_command {b : Bench} (id : b.id = i) (slots : b.slots = s.slots)
    (link : b.link = { ((s.bench i).commanded drop rest).link with setting := b.link.setting }) :
    let u : State := { s.putBench b with rotation := i + 1 }
    TurnFrame s u i rest ∧ u.links[i].rx.stray = strayAfter s i drop 0 ∧ u.links[i].measure = s.links[i].measure ∧
      u.links[i].setting = b.link.setting := by
  obtain ⟨rx, tx, measure, -, stray⟩ := Bench.commanded_frame s i drop rest
  have rxSame : b.link.rx = ((s.bench i).commanded drop rest).link.rx := by rw [link]
  have txSame : b.link.tx = ((s.bench i).commanded drop rest).link.tx := by rw [link]
  have measureSame : b.link.measure = ((s.bench i).commanded drop rest).link.measure := by rw [link]
  dsimp only
  rw [State.putBench_link id]
  refine ⟨.of_bench id slots ?_ (txSame.trans tx), ?_, measureSame.trans measure, rfl⟩
  · rw [rxSame]
    exact rx
  · rw [rxSame]
    exact stray

/-- A galley command with a number and a target acts on it. -/
theorem Bench.galleyCommand_of_target {b : Bench} {n : Word} {more : List (Option Word)} {g : Fin 32} (ok : n ≠ 0#16)
    (sound : more.any Option.isNone = false) (target : b.table.target b.id n.toNat = some g) :
    b.galleyCommand .kill (some n :: more) = b.killGalley g ∧
      b.galleyCommand .resume (some n :: more) = { b with table := b.table.resume g } ∧
      ∀ (w : Word) (tail : List (Option Word)), more = some w :: tail →
        b.galleyCommand .class (some n :: more) = { b with table := b.table.setClass g (min w.toNat 3) } := by
  have acts : ¬ (n = 0#16 ∨ more.any Option.isNone = true) := by
    rw [sound]
    simp [ok]
  unfold Bench.galleyCommand
  simp only [if_neg acts, target]
  exact ⟨trivial, trivial, fun w tail e => by rw [e]⟩

/-- A galley command that has no target is passed over, each of its words a stray word (R53). -/
theorem Bench.galleyCommand_of_none {b : Bench} {first : Option Word} {more : List (Option Word)}
    (bad : first = none ∨ first = some 0#16 ∨ more.any Option.isNone = true ∨
      ∃ n, first = some n ∧ b.table.target b.id n.toNat = none) :
    b.galleyCommand code (first :: more) = b.strays (more.length + 2) := by
  have words : 1 + (first :: more).length = more.length + 2 := by
    rw [List.length_cons]
    omega
  unfold Bench.galleyCommand
  rw [words]
  cases first with
  | none => rfl
  | some n =>
    dsimp only
    split
    · rfl
    · next acts =>
      rw [not_or] at acts
      rcases bad with e | e | e | ⟨m, e, noTarget⟩
      · cases e
      · exact absurd (Option.some.inj e) acts.1
      · exact absurd e acts.2
      · obtain rfl := Option.some.inj e
        rw [noTarget]

end

/-- Settles O22: the kill by the library reaches its link's parser as the link's own KILL does. -/
theorem killGalleyActsByState : Obligations.KillGalleyActsByState := by
  unfold Obligations.KillGalleyActsByState
  refine ⟨fun s index g r ready named hr live => ?_, fun s i n drop rest g r turn ok target hr => ?_⟩
  · obtain ⟨link, slots, record, free, eligible, same, kept, parser⟩ := (s.bench r.link).killGalley_spec hr live
    have killed := GalleyTable.kill_spec hr live
    let c := (s.bench r.link).killGalley g
    have cid : c.id = r.link := Bench.killGalley_id _ g
    have own : ((s.putBench c).respond doneResponse).links[r.link] = c.link := State.putBench_own s c cid
    refine ⟨(s.putBench c).respond doneResponse, ?_, rfl, fun stored => ?_, fun exposing => ?_, ?_, fun j other => ?_,
      fun other => own.trans (kept other), fun undue => ?_, fun galley open_ => ?_, slots, rfl, rfl, rfl⟩
    · have taken : exec (.killGalley index) s = .next (actKillGalley index s) :=
        exec_of_ready (c := .killGalley index) ready rfl
      rw [taken]
      unfold actKillGalley
      rw [GalleyTable.live_of_record named hr live]
    · obtain ⟨done, pool, list⟩ := killed.stored stored
      have left : c.table.eligible = s.table.eligible.filter (· ≠ g) := eligible.trans list
      refine ⟨record.trans done, free.trans pool, ?_, fun h hh => ?_⟩
      · show g ∉ c.table.eligible
        rw [left]
        simp
      · show h ∈ c.table.eligible ↔ _
        rw [left]
        simp [hh]
    · obtain ⟨pending, pool, list⟩ := killed.exposing exposing
      exact ⟨record.trans pending, free.trans pool, eligible.trans list⟩
    · rw [own]
      exact link
    · exact State.putBench_other s c (by rw [cid]; exact Ne.symm other)
    · have table : ((s.putBench c).respond doneResponse).table = s.table.kill g .killed := same undue
      rw [table]
      exact ⟨killed.others, killed.order⟩
    · have k := parser galley open_
      dsimp only
      rw [own]
      exact ⟨k.cleared, k.skips, k.opens, k.marked, k.measures, k.waitsMeasure⟩
  · let b := (s.bench i).commanded drop rest
    have command : exec .setterTurn s = .next (State.settle { s.putBench (b.killGalley g) with rotation := i + 1 }) := by
      rw [turn.exec_eq rfl (Nat.le_refl _)]
      have acts := (Bench.galleyCommand_of_target (b := b) (more := []) ok rfl (GalleyTable.target_some target)).1
      rw [List.nil_append, acts]
    have live : r.state ≠ .done := by
      obtain ⟨pre, post, -, ⟨q, hq, -, -, live⟩, -⟩ := target
      obtain rfl := Option.some.inj (hq.symm.trans hr)
      exact live
    have killed := GalleyTable.kill_spec hr live
    have id : (b.killGalley g).id = i := Bench.killGalley_id b g
    have setting : b.link.setting = { s.links[i].setting with pending := none } := rfl
    by_cases current : s.links[i].setting.parser = .inGalley ∧ s.links[i].setting.galley = some g ∧ r.ended = false
    · obtain ⟨inGalley, galley, open_⟩ := current
      have e : b.killGalley g = ({ b with table := b.table.kill g .killed } : Bench).withSetting Setting.skipped := by
        rw [Bench.killGalley_of_current (b := b) hr galley open_]
        exact Bench.killParser_of_inGalley (b := { b with table := b.table.kill g .killed }) inGalley
      obtain ⟨frame, stray, measure, link⟩ := TurnFrame.of_command (s := s) (drop := drop) (rest := rest) id (by rw [e]; rfl)
        (by rw [e]; rfl)
      refine ⟨_, command, frame, stray, measure, ?_, fun _ => ?_, fun h => absurd ⟨inGalley, galley, open_⟩ h⟩
      · show GalleyKilled s.table (b.killGalley g).table g r
        rw [e]
        exact killed
      · rw [link, e]
        rfl
    · have e : b.killGalley g = { b with table := b.table.kill g .killed } := by
        by_cases set : b.link.setting.galley = some g ∧ r.ended = false
        · have idle : b.parser = .idle ∨ b.parser = .header ∨ b.parser = .skip ∨ b.parser = .waitRecord := by
            rcases turn.parser with h | h | h
            · exact .inl h
            · exact absurd ⟨h, set.1, set.2⟩ current
            · exact .inr (.inr (.inl h))
          rw [Bench.killGalley_of_current (b := b) hr set.1 set.2]
          exact Bench.killParser_of_idle (b := { b with table := b.table.kill g .killed }) idle
        · rw [not_and, Bool.not_eq_false] at set
          by_cases galley : b.link.setting.galley = some g
          · exact Bench.killGalley_of_other (b := b) hr (.inr (set galley))
          · exact Bench.killGalley_of_other (b := b) hr (.inl galley)
      obtain ⟨frame, stray, measure, link⟩ := TurnFrame.of_command (s := s) (drop := drop) (rest := rest) id (by rw [e]; rfl)
        (by rw [e])
      refine ⟨_, command, frame, stray, measure, ?_, fun h => absurd h current, fun _ => ?_⟩
      · show GalleyKilled s.table (b.killGalley g).table g r
        rw [e]
        exact killed
      · rw [link, e]
        rfl

theorem min_three_eq_zero (n : Nat) : min n 3 = 0 ↔ n = 0 := by omega

/-- Settles O23: both commands reach the Galley Table alone. -/
theorem resumeAndSetClassMoveTheGalley : Obligations.ResumeAndSetClassMoveTheGalley := by
  unfold Obligations.ResumeAndSetClassMoveTheGalley
  have classList (t : GalleyTable) (g : Fin 32) (r : Galley) (n : Nat) : t.eligibleOf g r (min n 3) =
      if r.state = .pressed ∨ r.state = .set then
        (if n = 0 then t.eligible.filter (· ≠ g) else if g ∈ t.eligible then t.eligible else t.eligible ++ [g])
      else t.eligible := by
    unfold GalleyTable.eligibleOf
    simp only [min_three_eq_zero]
  refine ⟨fun s index cls g r ready named hr => ⟨fun failed off => ?_, fun live => ?_⟩,
    fun s i n w drop rest g r ok target hr => ⟨fun turn => ?_, fun turn => ?_⟩⟩
  · have taken : exec (.resumeGalley index) s = .next (actResumeGalley index s) :=
      exec_of_ready (c := .resumeGalley index) ready rfl
    have e := GalleyTable.resume_of_failed hr failed off
    refine ⟨({ s with table := s.table.resume g } : State).respond doneResponse, ?_, rfl, ?_, ?_, fun h hh => ?_, ?_, rfl,
      rfl, rfl⟩
    · rw [taken]
      unfold actResumeGalley
      rw [GalleyTable.live_of_record named hr (by rw [failed]; decide)]
      exact congrArg _ (if_pos failed)
    all_goals rw [State.respond_table, e]
    · exact set_same _ _ _
    · exact set_other _ (Ne.symm hh) _
  · have taken : exec (.setClass index cls) s = .next (actSetClass index cls s) :=
      exec_of_ready (c := .setClass index cls) ready rfl
    have e := GalleyTable.setClass_eq hr live (min cls.toNat 3)
    refine ⟨({ s with table := s.table.setClass g (min cls.toNat 3) } : State).respond doneResponse, ?_, rfl, ?_, ?_,
      fun h hh => ?_, ?_, rfl, rfl, rfl⟩
    · rw [taken]
      unfold actSetClass
      rw [GalleyTable.live_of_record named hr live]
    all_goals rw [State.respond_table, e]
    · exact set_same _ _ _
    · exact classList _ _ _ _
    · exact set_other _ (Ne.symm hh) _
  · let b := (s.bench i).commanded drop rest
    have acts := (Bench.galleyCommand_of_target (b := b) (more := []) ok rfl (GalleyTable.target_some target)).2.1
    have command : exec .setterTurn s = .next (State.settle
        { s.putBench { b with table := b.table.resume g } with rotation := i + 1 }) := by
      rw [turn.exec_eq rfl (Nat.le_refl _), List.nil_append, acts]
    obtain ⟨frame, stray, measure, link⟩ := TurnFrame.of_command (s := s) (i := i) (drop := drop) (rest := rest)
      (b := { b with table := b.table.resume g }) rfl rfl rfl
    refine ⟨_, command, frame, stray, measure, link, fun other => GalleyTable.resume_of_other hr other, fun failed off => ?_⟩
    have table : ({ s.putBench { b with table := b.table.resume g } with rotation := i + 1 } : State).table =
        s.table.resume g := rfl
    rw [table, GalleyTable.resume_of_failed hr failed off]
    exact ⟨set_same _ _ _, rfl, fun h hh => set_other _ (Ne.symm hh) _, rfl, rfl⟩
  · let b := (s.bench i).commanded drop rest
    have live : r.state ≠ .done := by
      obtain ⟨pre, post, -, ⟨q, hq, -, -, live⟩, -⟩ := target
      obtain rfl := Option.some.inj (hq.symm.trans hr)
      exact live
    have acts := (Bench.galleyCommand_of_target (b := b) (more := [some w]) ok rfl (GalleyTable.target_some target)).2.2 w [] rfl
    have command : exec .setterTurn s = .next (State.settle
        { s.putBench { b with table := b.table.setClass g (min w.toNat 3) } with rotation := i + 1 }) := by
      rw [turn.exec_eq rfl (Nat.le_refl _)]
      exact congrArg (fun c : Bench => Host.Outcome.next (State.settle { s.putBench c with rotation := i + 1 })) acts
    obtain ⟨frame, stray, measure, link⟩ := TurnFrame.of_command (s := s) (i := i) (drop := drop) (rest := rest)
      (b := { b with table := b.table.setClass g (min w.toNat 3) }) rfl rfl rfl
    refine ⟨_, command, frame, stray, measure, link, ?_⟩
    have table : ({ s.putBench { b with table := b.table.setClass g (min w.toNat 3) } with rotation := i + 1 } : State).table =
        s.table.setClass g (min w.toNat 3) := rfl
    rw [table, GalleyTable.setClass_eq hr live]
    exact ⟨set_same _ _ _, classList _ _ _ _, fun h hh => set_other _ (Ne.symm hh) _, rfl, rfl⟩

/-- Settles O24: the library's index is checked first, and a link's command that names no galley is passed over. -/
theorem galleyCommandsAreRefused : Obligations.GalleyCommandsAreRefused := by
  unfold Obligations.GalleyCommandsAreRefused
  refine ⟨fun s index cls ready => ⟨fun bad => ?_, fun g r named hr live other => ?_⟩,
    fun s i code params first last drop rest turn shape bad => ?_⟩
  · have none := GalleyTable.live_of_bad bad
    have kill : exec (.killGalley index) s = .next (actKillGalley index s) :=
      exec_of_ready (c := .killGalley index) ready rfl
    have resume : exec (.resumeGalley index) s = .next (actResumeGalley index s) :=
      exec_of_ready (c := .resumeGalley index) ready rfl
    have setClass : exec (.setClass index cls) s = .next (actSetClass index cls s) :=
      exec_of_ready (c := .setClass index cls) ready rfl
    rw [kill, resume, setClass]
    unfold actKillGalley actResumeGalley actSetClass
    rw [none]
    exact ⟨rfl, rfl, rfl⟩
  · have resume : exec (.resumeGalley index) s = .next (actResumeGalley index s) :=
      exec_of_ready (c := .resumeGalley index) ready rfl
    rw [resume]
    unfold actResumeGalley
    rw [GalleyTable.live_of_record named hr live]
    exact congrArg _ (if_neg other)
  · let b := (s.bench i).commanded drop rest
    have passed : b.galleyCommand code (params ++ [last]) = b.strays (params.length + 2) := by
      have none (h : ∃ n, first = some n ∧ ∀ g ∈ s.table.order, ¬ Names s.table i n.toNat g) :
          ∃ n, first = some n ∧ b.table.target b.id n.toNat = none := by
        obtain ⟨n, e, no⟩ := h
        exact ⟨n, e, GalleyTable.target_none no⟩
      rcases shape with ⟨-, rfl, rfl⟩ | ⟨-, rfl⟩
      · refine Bench.galleyCommand_of_none (more := []) ?_
        rcases bad with h | h | h | h
        · exact .inl h
        · exact .inl h
        · exact .inr (.inl h)
        · exact .inr (.inr (.inr (none h)))
      · refine Bench.galleyCommand_of_none (more := [last]) ?_
        rcases bad with h | h | h | h
        · exact .inl h
        · exact .inr (.inr (.inl (by rw [h]; rfl)))
        · exact .inr (.inl h)
        · exact .inr (.inr (.inr (none h)))
    have command : isCommand code = true := by
      rcases shape with ⟨rfl | rfl, -, -⟩ | ⟨rfl, -⟩ <;> rfl
    have whole : paramCount code ≤ (params ++ [last]).length := by
      rcases shape with ⟨rfl | rfl, rfl, -⟩ | ⟨rfl, rfl⟩ <;> exact Nat.le_refl _
    refine ⟨{ s.putBench (b.strays (params.length + 2)) with rotation := i + 1 }, ?_, ?_, rfl, ?_, ?_, ?_⟩
    · rw [turn.exec_eq command whole, passed]
    · exact .of_bench rfl rfl rfl rfl
    all_goals
      rw [State.putBench_link (s := s) (i := i) (b := b.strays (params.length + 2)) (show b.id = i from rfl)]
    · obtain ⟨-, -, -, -, stray⟩ := Bench.commanded_frame s i drop rest
      show min (b.link.rx.stray + (params.length + 2)) 65535 = _
      rw [show b.link.rx.stray = _ from stray]
      unfold strayAfter
      split
      · omega
      · rw [if_pos rfl, if_neg (by omega)]
    · rfl
    · rfl

end Sys2Proof.Machine

/-! The library port's words: how long a block is, and what its last word does (R154; 11.3). -/

namespace Sys2Proof.Machine

/-! ## How many words a block has -/

/-- The words taken so far end a block exactly if the block which they begin has no more words: its length can be told
from any of its beginnings that hold the count word, and the others are too short. -/
theorem blockLength_take {ws : List Word} {n : Nat} (pos : 0 < n) (le : n ≤ ws.length) :
    blockLength (ws.take n) ≤ n ↔ blockLength ws ≤ n := by
  have length : (ws.take n).length = n := List.length_take_of_le le
  have kept : ∀ i, i < n → (ws.take n).getD i 0#16 = ws.getD i 0#16 := fun i h => by
    simp [h]
  unfold blockLength
  rw [kept 0 pos, length]
  split
  case h_4 =>
    by_cases short : n < 5
    · rw [if_pos short]
      have : ∀ m : Nat, (if ws.length < 5 then 6 else if writeEndsAtCount (ws.getD 1 0#16) (ws.getD 4 0#16) then 5
        else 5 + m) ≥ 5 := fun m => by split <;> [omega; (split <;> omega)]
      have := this (ws.getD 4 0#16).toNat
      omega
    · rw [if_neg short, kept 1 (by omega), kept 4 (by omega), if_neg (show ¬ ws.length < 5 by omega)]
  case h_5 =>
    by_cases short : n < 2
    · rw [if_pos short]
      have : ∀ m : Nat, (if ws.length < 2 then 3 else if 48 < (ws.getD 1 0#16).toNat then 2 else 2 + 4 * m) ≥ 2 :=
        fun m => by split <;> [omega; (split <;> omega)]
      have := this (ws.getD 1 0#16).toNat
      omega
    · rw [if_neg short, kept 1 (by omega), if_neg (show ¬ ws.length < 2 by omega)]
  all_goals rfl

theorem blockLength_writeStore {ws : List Word} (first : (ws.getD 0 0#16).toNat = 4) (long : 5 ≤ ws.length) :
    blockLength ws =
      if writeEndsAtCount (ws.getD 1 0#16) (ws.getD 4 0#16) then 5 else 5 + (ws.getD 4 0#16).toNat := by
  unfold blockLength
  rw [first]
  exact if_neg (by omega)

theorem blockLength_loadClassList {ws : List Word} (first : (ws.getD 0 0#16).toNat = 5) (long : 2 ≤ ws.length) :
    blockLength ws = if 48 < (ws.getD 1 0#16).toNat then 2 else 2 + 4 * (ws.getD 1 0#16).toNat := by
  unfold blockLength
  rw [first]
  exact if_neg (by omega)

/-- A first word that names no command is a block by itself (R154). -/
theorem blockLength_badCommand {ws : List Word} (first : ¬ (1 ≤ (ws.getD 0 0#16).toNat ∧ (ws.getD 0 0#16).toNat ≤ 13)) :
    blockLength ws = 1 := by
  unfold blockLength
  split
  case h_14 => rfl
  all_goals omega

theorem blockLength_pos (ws : List Word) : 0 < blockLength ws := by
  unfold blockLength
  split
  case h_4 => split <;> [omega; (split <;> omega)]
  case h_5 => split <;> [omega; (split <;> omega)]
  all_goals omega

/-- A beginning of a block is whole if it is as long as the block. -/
theorem blockWhole_take {ws : List Word} {n : Nat} (pos : 0 < n) (le : n ≤ ws.length) :
    blockWhole (ws.take n) = decide (blockLength ws ≤ n) := by
  unfold blockWhole
  rw [List.length_take_of_le le]
  exact decide_eq_decide.2 (blockLength_take pos le)

/-- A block that its last word completes has just its length. -/
theorem blockLength_of_completed {ws : List Word} {w : Word} (before : ws = [] ∨ blockWhole ws = false)
    (whole : blockWhole (ws ++ [w]) = true) : blockLength (ws ++ [w]) = (ws ++ [w]).length := by
  have most : blockLength (ws ++ [w]) ≤ (ws ++ [w]).length := of_decide_eq_true whole
  refine le_antisymm most ?_
  rcases ws.eq_nil_or_concat with rfl | ⟨vs, v, rfl⟩
  · exact blockLength_pos [w]
  · rw [List.concat_eq_append] at before ⊢
    have not := before.resolve_left (by simp)
    rw [← List.take_left (l₁ := vs ++ [v]) (l₂ := [w]), blockWhole_take (by simp) (by simp)] at not
    have := of_decide_eq_false not
    simp only [List.length_append, List.length_singleton] at this ⊢
    omega

/-! ## Reading a block -/

theorem readEntries_length : ∀ ws : List Word, (readEntries ws).length = ws.length / 4
  | [] => rfl
  | [_] => by simp [readEntries]
  | [_, _] => by simp [readEntries]
  | [_, _, _] => by simp [readEntries]
  | _ :: _ :: _ :: _ :: rest => by
    simp only [readEntries, List.length_cons, readEntries_length rest]
    omega

theorem readEntries_words (entries : List ClassWords) : readEntries (entries.flatMap ClassWords.words) = entries := by
  induction entries with
  | nil => rfl
  | cons e entries ih => exact congrArg (e :: ·) ih

theorem classWords_length (entries : List ClassWords) : (entries.flatMap ClassWords.words).length = 4 * entries.length := by
  induction entries with
  | nil => rfl
  | cons e entries ih =>
    simp only [List.flatMap_cons, List.length_append, ih, List.length_cons, ClassWords.words, List.length_nil]
    omega

theorem offset_joined (offset : BitVec 32) : (offset.extractLsb' 16 16 ++ offset.extractLsb' 0 16 : BitVec 32) = offset := by
  ext i h
  simp only [BitVec.getElem_append, BitVec.getElem_extractLsb']
  split
  · rw [Nat.zero_add, BitVec.getLsbD_eq_getElem h]
  · rw [Nat.add_sub_cancel' (by omega), BitVec.getLsbD_eq_getElem h]

theorem namesCommand_iff (w : Word) : namesCommand w = true ↔ 1 ≤ w.toNat ∧ w.toNat ≤ 13 := by simp [namesCommand]

theorem complete_badCommand_iff {first : Word} :
    (LibCommand.badCommand first).complete = true ↔ ¬ (1 ≤ first.toNat ∧ first.toNat ≤ 13) := by
  show (!namesCommand first) = true ↔ _
  rw [Bool.not_eq_true', ← Bool.not_eq_true, namesCommand_iff]

theorem readBlock_badCommand {ws : List Word} (first : ¬ (1 ≤ (ws.getD 0 0#16).toNat ∧ (ws.getD 0 0#16).toNat ≤ 13)) :
    readBlock ws = .badCommand (ws.getD 0 0#16) := by
  unfold readBlock
  dsimp only
  split
  case h_14 => rfl
  all_goals omega

/-- The operands of a command read from a block of just its length agree. -/
theorem complete_readBlock {ws : List Word} (exact : blockLength ws = ws.length) : (readBlock ws).complete = true := by
  unfold readBlock
  dsimp only
  split
  case h_4 first =>
    have long : 5 ≤ ws.length := by
      by_contra short
      have : blockLength ws = 6 := by
        unfold blockLength
        rw [first]
        exact if_pos (by omega)
      omega
    rw [blockLength_writeStore first long] at exact
    rw [complete_writeStore_eq]
    split at exact
    · next ends => rw [if_pos ends, List.isEmpty_iff_length_eq_zero, List.length_drop]; omega
    · next ends => rw [if_neg ends]; exact decide_eq_true (by rw [List.length_drop]; omega)
  case h_5 first =>
    have long : 2 ≤ ws.length := by
      by_contra short
      have : blockLength ws = 3 := by
        unfold blockLength
        rw [first]
        exact if_pos (by omega)
      omega
    rw [blockLength_loadClassList first long] at exact
    rw [complete_loadClassList]
    split at exact
    · next many => rw [if_pos many, List.isEmpty_iff_length_eq_zero, readEntries_length, List.length_drop]; omega
    · next few => rw [if_neg few]; exact decide_eq_true (by rw [readEntries_length, List.length_drop]; omega)
  case h_14 n1 n2 n3 n4 n5 n6 n7 n8 n9 n10 n11 n12 n13 =>
    rw [complete_badCommand_iff]
    simp only [imp_false] at n1 n2 n3 n4 n5 n6 n7 n8 n9 n10 n11 n12 n13
    omega
  all_goals rfl

/-- The block of a command whose operands agree has just the length that its own words tell. -/
theorem blockLength_block {c : LibCommand} (whole : c.complete = true) : blockLength c.block = c.block.length := by
  cases c with
  | writeStore bank offset count words =>
    rw [complete_writeStore_eq] at whole
    have long : (LibCommand.writeStore bank offset count words).block.length = 5 + words.length := by
      simp [LibCommand.block, offsetWords]
      omega
    have length : blockLength (LibCommand.writeStore bank offset count words).block =
        if writeEndsAtCount bank count then 5 else 5 + count.toNat := blockLength_writeStore rfl (by omega)
    rw [length, long]
    split at whole
    · next ends => rw [if_pos ends, List.isEmpty_iff_length_eq_zero.1 whole]
    · next ends => rw [if_neg ends, of_decide_eq_true whole]
  | loadClassList count entries =>
    rw [complete_loadClassList] at whole
    have long : (LibCommand.loadClassList count entries).block.length = 2 + 4 * entries.length := by
      simp only [LibCommand.block, List.length_append, classWords_length, List.length_cons, List.length_nil]
    have length : blockLength (LibCommand.loadClassList count entries).block =
        if 48 < count.toNat then 2 else 2 + 4 * count.toNat := blockLength_loadClassList rfl (by omega)
    rw [length, long]
    split at whole
    · next many => rw [if_pos many, List.isEmpty_iff_length_eq_zero.1 whole]
    · next few => rw [if_neg few, of_decide_eq_true whole]
  | badCommand first =>
    exact blockLength_badCommand (complete_badCommand_iff.1 whole)
  | _ => rfl

/-- A command whose operands agree is read back from its block. -/
theorem readBlock_block {c : LibCommand} (whole : c.complete = true) : readBlock c.block = c := by
  cases c with
  | installFont bank offset => exact congrArg (LibCommand.installFont bank) (offset_joined offset)
  | readStore bank offset count => exact congrArg (LibCommand.readStore bank · count) (offset_joined offset)
  | writeStore bank offset count words =>
    exact congrArg (LibCommand.writeStore bank · count words) (offset_joined offset)
  | loadClassList count entries => exact congrArg (LibCommand.loadClassList count) (readEntries_words entries)
  | badCommand first =>
    exact readBlock_badCommand (ws := [first]) (complete_badCommand_iff.1 whole)
  | _ => rfl

/-! ## The block's command -/

theorem State.startCopy_phase (s : State) (i : Fin 8) (bank offset : Nat) (ph : PortPhase) (r : List Word) :
    (State.startCopy { s with port := { s.port with phase := ph } } i bank offset).respond r =
      (s.startCopy i bank offset).respond r := by
  unfold State.startCopy
  dsimp only
  cases bankNumber bank with
  | none => rfl
  | some b =>
    cases h : s.banks[b].present with
    | true => simp only [h]; rfl
    | false => simp only [h]; rfl

theorem State.withdraw_phase (s : State) (i : Fin 8) (ph : PortPhase) (r : List Word) :
    (State.withdraw { s with port := { s.port with phase := ph } } i).respond r = (s.withdraw i).respond r := by
  unfold State.withdraw
  by_cases h : s.slots[i].refCount = 0
  · rw [if_pos h, if_pos h]; rfl
  · rw [if_neg h, if_neg h]; rfl

/-- A whole block's command does not see which words of it the port had taken. -/
theorem act_phase (c : LibCommand) (s : State) (ph : PortPhase) :
    act c { s with port := { s.port with phase := ph } } = act c s := by
  cases c with
  | installFont bank offset =>
    show actInstallFont _ _ _ = actInstallFont _ _ _
    unfold actInstallFont
    dsimp only
    split
    · rfl
    · split
      · rfl
      · exact congrArg State.settle (s.startCopy_phase _ _ _ ph _)
  | retireFont font => 
    show actRetireFont _ _ = actRetireFont _ _
    unfold actRetireFont
    dsimp only
    split
    · rfl
    · exact congrArg State.settle (s.withdraw_phase _ ph _)
  | readStore bank offset count => 
    show actReadStore _ _ _ _ = actReadStore _ _ _ _
    unfold actReadStore; split; rfl; split <;> rfl
  | writeStore bank offset count words =>
    show actWriteStore _ _ _ _ _ = actWriteStore _ _ _ _ _
    unfold actWriteStore; split; rfl; split <;> rfl
  | loadClassList count entries => 
    show actLoadClassList _ _ _ = actLoadClassList _ _ _
    unfold actLoadClassList; split; rfl; split <;> rfl
  | setLink link rate enable stray => 
    show actSetLink _ _ _ _ _ = actSetLink _ _ _ _ _
    unfold actSetLink; split; (split <;> rfl); rfl
  | killGalley index => 
    show actKillGalley _ _ = actKillGalley _ _
    unfold actKillGalley; dsimp only; split <;> rfl
  | resumeGalley index => 
    show actResumeGalley _ _ = actResumeGalley _ _
    unfold actResumeGalley; dsimp only; split; rfl; split <;> rfl
  | setClass index cls => 
    show actSetClass _ _ _ = actSetClass _ _ _
    unfold actSetClass; dsimp only; split <;> rfl
  | clearUnit =>
    show actClearUnit _ = actClearUnit _
    unfold actClearUnit; dsimp only; split <;> rfl
  | readStatus sec => rfl
  | acknowledgeAttention causes => rfl
  | libraryReset => rfl
  | badCommand first => rfl

end Sys2Proof.Machine

/-! The obligations about the port's words and the sections of READ STATUS (R154, R157; 11.3). -/

namespace Sys2Proof.Machine

section
variable {s : State} {ws vs : List Word} {w : Word} {c : LibCommand}

theorem LibCommand.block_ne_nil (c : LibCommand) : c.block ≠ [] := by cases c <;> exact List.cons_ne_nil _ _

theorem State.offer_busy (busy : (∃ op, s.port.phase = .acting op) ∨ ∃ r, s.port.phase = .responding r) :
    s.offer c = s.keepOffered c.block := by
  unfold State.offer
  rcases busy with ⟨op, h⟩ | ⟨r, h⟩ <;> rw [h]

theorem State.keepOffered_strobe (some : ws ≠ []) : (s.keepOffered ws).port.strobe = true := by
  show (!(s.port.offered ++ ws).isEmpty) = true
  simp [some]

/-- Settles O29: a busy port adds what it is offered to the words that wait. -/
theorem busyPortTakesNoWord : Obligations.BusyPortTakesNoWord := by
  unfold Obligations.BusyPortTakesNoWord
  intro s c w busy
  have whole : exec c.instr s = .next (s.keepOffered c.block) := by rw [c.exec_instr, State.offer_busy busy]
  have single : exec (.commandBlockWord w) s = .next (s.keepOffered [w]) := by
    rw [exec_commandBlockWord, State.takeWord_busy busy]
  refine ⟨whole, single, fun t reached => ?_⟩
  rw [whole, single] at reached
  rcases reached with h | h <;> cases h
  · exact State.keepOffered_strobe c.block_ne_nil
  · exact State.keepOffered_strobe (List.cons_ne_nil _ _)

/-- A command whose operands do not agree, or that comes in TAKING, is its words taken one by one (log 5). -/
theorem State.offer_words
    (words : (s.port.phase = .ready ∧ c.complete = false) ∨ ∃ ws, s.port.phase = .taking ws) :
    s.offer c = s.takeWords c.block := by
  unfold State.offer
  rcases words with ⟨ready, part⟩ | ⟨ws, taking⟩
  · rw [ready]
    exact if_neg (by simp [part])
  · rw [taking]

/-- The words taken so far: none in READY. -/
def State.taken (s : State) (ws : List Word) : Prop :=
  (s.port.phase = .ready ∧ ws = []) ∨ s.port.phase = .taking ws

theorem State.takeWord_of_taken (taken : s.taken ws) (w : Word) : s.takeWord w = s.takeBlock (ws ++ [w]) := by
  rcases taken with ⟨ready, rfl⟩ | taking
  · exact State.takeWord_ready ready w
  · exact State.takeWord_taking taking w

theorem State.takeBlock_of_part (part : blockWhole ws = false) : s.takeBlock ws = s.gather ws :=
  if_neg (by simp [part])

theorem State.takeBlock_of_whole (whole : blockWhole ws = true) : s.takeBlock ws = act (readBlock ws) s := if_pos whole

/-- Words that complete a block only with the last of them act as that block. -/
theorem State.takeWords_block (taken : s.taken ws) (more : vs ≠ []) (whole : blockWhole (ws ++ vs) = true)
    (parts : ∀ n, 0 < n → n < (ws ++ vs).length → blockWhole ((ws ++ vs).take n) = false) :
    s.takeWords vs = act (readBlock (ws ++ vs)) s := by
  induction vs generalizing s ws with
  | nil => exact absurd rfl more
  | cons v vs ih =>
    have joined : ws ++ v :: vs = (ws ++ [v]) ++ vs := by simp
    rw [joined] at whole parts ⊢
    rw [State.takeWords_cons, State.takeWord_of_taken taken]
    rcases vs.eq_nil_or_concat with rfl | ⟨us, u, hu⟩
    · rw [List.append_nil] at whole ⊢
      exact State.takeBlock_of_whole whole
    · have rest : vs ≠ [] := by rw [hu]; simp
      have part := parts (ws ++ [v]).length (by simp) (by simp [List.length_pos_iff.2 rest])
      rw [List.take_left] at part
      rw [State.takeBlock_of_part part, ih (.inr rfl) rest whole parts]
      exact act_phase _ s _

/-- Settles O30: the parts of a block are too short for the length which its own words tell. -/
theorem blockWordsSpellTheirCommand : Obligations.BlockWordsSpellTheirCommand := by
  unfold Obligations.BlockWordsSpellTheirCommand
  intro c agree
  have length : blockLength c.block = c.block.length := blockLength_block agree
  have whole : blockWhole c.block = true := decide_eq_true length.le
  have parts : ∀ n, 0 < n → n < c.block.length → blockWhole (c.block.take n) = false := fun n pos less => by
    rw [blockWhole_take pos less.le, length]
    exact decide_eq_false (by omega)
  refine ⟨readBlock_block agree, whole, parts, fun s ready => ?_⟩
  rw [execAll_words, exec_of_ready ready agree,
    State.takeWords_block (ws := []) (.inl ⟨ready, rfl⟩) c.block_ne_nil whole parts]
  exact congrArg (fun d => Host.Outcome.next (act d s)) (readBlock_block agree)

/-- A first word of a block of more than one word. -/
theorem blockWhole_first (low : 1 ≤ w.toNat) (high : w.toNat ≤ 12) (long : w.toNat ≠ 10) : blockWhole [w] = false := by
  refine decide_eq_false (show ¬ blockLength [w] ≤ 1 from ?_)
  unfold blockLength
  rw [show [w].getD 0 0#16 = w from rfl, List.length_singleton]
  split
  case h_4 => simp
  case h_5 => simp
  case h_14 n1 n2 n3 n4 n5 n6 n7 n8 n9 n10 n11 n12 n13 =>
    simp only [imp_false] at n1 n2 n3 n4 n5 n6 n7 n8 n9 n10 n11 n12 n13
    omega
  all_goals omega

/-- Settles O28: each word ends its block or makes it longer. -/
theorem portTakesWordsOneByOne : Obligations.PortTakesWordsOneByOne := by
  unfold Obligations.PortTakesWordsOneByOne
  intro s
  refine ⟨fun first ready unnamed => ?_, fun w ready low high long => ?_, fun ws w taking part => ?_,
    fun ws w taken before whole => ?_, fun c words => ?_, fun r responding => ?_, fun other => ?_⟩
  · have whole : (LibCommand.badCommand first).complete = true := by
      rw [complete_badCommand_iff, ← namesCommand_iff, unnamed]
      exact Bool.false_ne_true
    exact exec_of_ready (c := .badCommand first) ready whole
  · rw [exec_commandBlockWord, State.takeWord_ready ready, State.takeBlock_of_part (blockWhole_first low high long)]
  · rw [exec_commandBlockWord, State.takeWord_taking taking, State.takeBlock_of_part part]
  · have agree := complete_readBlock (blockLength_of_completed (.inr before) whole)
    rw [exec_commandBlockWord, State.takeWord_of_taken taken, State.takeBlock_of_whole whole,
      exec_of_ready (s := { s with port := { s.port with phase := .ready } }) rfl agree]
    exact congrArg Host.Outcome.next (act_phase _ s .ready).symm
  · rw [c.exec_instr, execAll_words, State.offer_words words]
  · rw [exec_responseRead, execAll_words]
    unfold State.responseTaken
    rw [responding]
    rfl
  · rw [exec_responseRead]
    unfold State.responseTaken
    split
    · next r h => exact absurd h (other r)
    all_goals rfl

end

/-! ## READ STATUS -/

/-- A field of a list of members of one length. -/
theorem getD_flatMap {α : Type} {f : α → List Word} {k : Nat} :
    ∀ {l : List α}, (∀ x ∈ l, (f x).length = k) → ∀ {i : Nat} (hi : i < l.length) {j : Nat}, j < k →
      ∀ rest : List Word, (l.flatMap f ++ rest).getD (k * i + j) 0#16 = (f l[i]).getD j 0#16
  | [], _, _, hi, _, _, _ => absurd hi (Nat.not_lt_zero _)
  | x :: l, fixed, 0, _, j, hj, rest => by
    have := fixed x List.mem_cons_self
    simp [List.getElem?_append_left, this, hj]
  | x :: l, fixed, i + 1, hi, j, hj, rest => by
    have := fixed x List.mem_cons_self
    have tail := getD_flatMap (f := f) (fun y hy => fixed y (List.mem_cons_of_mem _ hy)) (Nat.lt_of_succ_lt_succ hi) hj rest
    rw [List.flatMap_cons, List.append_assoc, List.getD_append_right _ _ _ _ (by rw [this, Nat.mul_succ]; omega), this,
      show k * (i + 1) + j - k = k * i + j by rw [Nat.mul_succ]; omega, tail]
    rfl

theorem slotFields_length (x : Slot) : (slotFields x).length = 12 := rfl
theorem bankFields_length (s : State) (i : Fin 8) : (s.bankFields i).length = 5 := rfl
theorem linkFields_length (l : Link) : (linkFields l).length = 13 := rfl

theorem slotIds_getElem (i : Fin 8) : slotIds[i.val]'i.isLt = i := by decide +revert

theorem linkIds_getElem (i : Fin 4) : linkIds[i.val]'i.isLt = i := by decide +revert

theorem statusSection_isSome (s : State) (n : Nat) : (s.statusSection n).isSome = true ↔ n ≤ 5 := by
  unfold State.statusSection
  split
  case h_7 n0 n1 n2 n3 n4 n5 =>
    simp only [imp_false] at n0 n1 n2 n3 n4 n5
    simp only [Option.isSome_none, Bool.false_eq_true, false_iff]
    omega
  all_goals simp

theorem directorySection_field (s : State) (i : Fin 8) {j : Nat} (hj : j < 12) :
    s.directorySection.getD (12 * i.val + j) 0#16 = (slotFields s.slots[i]).getD j 0#16 := by
  have := getD_flatMap (f := fun i : Fin 8 => slotFields s.slots[i]) (fun _ _ => slotFields_length _) (l := slotIds)
    i.isLt hj []
  rw [List.append_nil] at this
  exact this.trans (by rw [slotIds_getElem])

theorem banksSection_field (s : State) (i : Fin 8) {j : Nat} (hj : j < 5) :
    s.banksSection.getD (5 * i.val + j) 0#16 = (s.bankFields i).getD j 0#16 := by
  have := getD_flatMap (f := s.bankFields) (fun _ _ => bankFields_length s _) (l := slotIds) i.isLt hj
    [natWord (holderCode s.bus.holder), flagWord s.bus.holdRequest, flagWord s.bus.holdAck]
  exact this.trans (by rw [slotIds_getElem])

theorem linksSection_field (s : State) (i : Fin 4) {j : Nat} (hj : j < 13) :
    s.linksSection.getD (13 * i.val + j) 0#16 = (linkFields s.links[i]).getD j 0#16 := by
  have := getD_flatMap (f := fun i : Fin 4 => linkFields s.links[i]) (fun _ _ => linkFields_length _) (l := linkIds)
    i.isLt hj []
  rw [List.append_nil] at this
  exact this.trans (by rw [linkIds_getElem])

/-- Settles O26: the fields are laid out slot by slot, position by position and link by link. -/
theorem readStatusChangesOnlyThePort : Obligations.ReadStatusChangesOnlyThePort := by
  unfold Obligations.ReadStatusChangesOnlyThePort
  intro s sec ready
  have taken : exec (.readStatus sec) s = .next (s.respond (s.statusResponse sec)) :=
    exec_of_ready (c := .readStatus sec) ready rfl
  refine ⟨fun fields named => ?_, statusSection_isSome s _, fun high => ?_, fun fields named => ?_, fun fields named => ?_,
    fun fields named => ?_⟩
  · rw [taken]
    unfold State.statusResponse
    rw [named]
    rfl
  · have unnamed : s.statusSection sec.toNat = none := by
      rw [← Option.not_isSome_iff_eq_none, statusSection_isSome]
      omega
    rw [taken]
    unfold State.statusResponse
    rw [unnamed]
    rfl
  · cases named
    exact ⟨rfl, fun i => ⟨directorySection_field s i (by omega), directorySection_field s i (by omega),
      directorySection_field s i (by omega)⟩⟩
  · cases named
    exact ⟨rfl, fun i => ⟨banksSection_field s i (by omega), banksSection_field s i (by omega)⟩⟩
  · cases named
    exact ⟨rfl, fun i => ⟨linksSection_field s i (by omega), linksSection_field s i (by omega),
      linksSection_field s i (by omega)⟩⟩

end Sys2Proof.Machine

/-! The obligations about the link receivers: bytes, the ring, the line's return to mark, and a break (R132 to R139). -/

namespace Sys2Proof.Machine

/-! ## The ring -/

section
variable {rx : Receiver} {w : Option Word}

theorem markTail_eq (l : List RingEntry) :
    (markTail l).dropLast = l.dropLast ∧ (markTail l).getLast? = l.getLast?.map fun e => { e with marker := true } := by
  induction l with
  | nil => exact ⟨rfl, rfl⟩
  | cons e l ih =>
    cases l with
    | nil => exact ⟨rfl, rfl⟩
    | cons f l =>
      have some : markTail (f :: l) ≠ [] := List.ne_nil_of_length_pos (by rw [markTail_length]; exact Nat.succ_pos _)
      obtain ⟨most, last⟩ := ih
      refine ⟨?_, ?_⟩
      · show (e :: markTail (f :: l)).dropLast = e :: (f :: l).dropLast
        rw [List.dropLast_cons_of_ne_nil some, most]
      · show (e :: markTail (f :: l)).getLast? = _
        rw [List.getLast?_cons_cons, ← last]
        cases h : markTail (f :: l) with
        | nil => exact absurd h some
        | cons x xs => exact List.getLast?_cons_cons

theorem endsDiscard_iff : endsDiscard w = true ↔ w = some 0xFF01#16 ∨ w = some 0xFF02#16 := by
  unfold endsDiscard
  rw [Bool.or_eq_true, decide_eq_true_iff, decide_eq_true_iff]
  rfl

theorem Receiver.offer_of_room (receiving : rx.recv = .receiving) (room : rx.ring.length < 256) :
    rx.offer w = rx.store { code := w, marker := false, drop := 0 } := by
  unfold Receiver.offer
  rw [receiving]
  exact if_pos room

theorem Receiver.offer_of_full (receiving : rx.recv = .receiving) (full : 256 ≤ rx.ring.length) :
    rx.offer w = { rx with ring := markTail rx.ring, recv := .discard, drop := 1 } := by
  unfold Receiver.offer
  rw [receiving]
  exact if_neg (Nat.not_lt.2 full)

theorem Receiver.offer_of_end (discard : rx.recv = .discard) (ends : endsDiscard w = true) (room : rx.ring.length < 256) :
    rx.offer w = { rx.store { code := w, marker := false, drop := rx.drop } with recv := .receiving, drop := 0 } := by
  unfold Receiver.offer
  rw [discard]
  exact if_pos ⟨ends, room⟩

theorem Receiver.offer_of_drop (discard : rx.recv = .discard)
    (other : ¬ (endsDiscard w = true ∧ rx.ring.length < Config.ringSize)) :
    rx.offer w = { rx with drop := satAdd rx.drop 1 } := by
  unfold Receiver.offer
  rw [discard]
  exact if_neg other

theorem Receiver.offer_of_disabled (disabled : rx.recv = .disabled) : rx.offer w = rx := by
  unfold Receiver.offer
  rw [disabled]

theorem Receiver.take_readyOut : rx.take.readyOut =
    if rx.recv ≠ .disabled ∧ rx.ring.tail.length = Config.readyOnAt then true else rx.readyOut := rfl

/-- Settles O32: by the receive state, the room in the ring, and the word. -/
theorem ringStoresMarksAndCounts : Obligations.RingStoresMarksAndCounts := by
  unfold Obligations.RingStoresMarksAndCounts
  intro rx w
  refine ⟨fun receiving room => ?_, fun receiving full => ?_, fun discard ends room => ?_, fun discard other => ?_,
    Receiver.offer_of_disabled, fun enabled length => ?_, fun length => ?_, rfl⟩
  · rw [Receiver.offer_of_room receiving room]
    have count : ((rx.ring ++ [({ code := w, marker := false, drop := 0 } : RingEntry)]).length = Config.readyOffAt) =
        (rx.ring.length = 223) := by
      rw [List.length_append, List.length_singleton]
      exact propext ⟨fun h => Nat.succ.inj h, fun h => congrArg Nat.succ h⟩
    unfold Receiver.store
    simp only [count]
  · rw [Receiver.offer_of_full receiving full]
    exact ⟨rfl, rfl, markTail_length _, (markTail_eq _).1, (markTail_eq _).2, rfl⟩
  · rw [Receiver.offer_of_end discard (endsDiscard_iff.2 ends) room]
    exact ⟨rfl, rfl, rfl⟩
  · refine Receiver.offer_of_drop discard fun ⟨ends, room⟩ => ?_
    rcases other with ⟨notStart, notEnd⟩ | full
    · rcases endsDiscard_iff.1 ends with h | h
      · exact notStart h
      · exact notEnd h
    · exact absurd room (Nat.not_lt.2 full)
  · rw [Receiver.take_readyOut, if_pos ⟨enabled, by rw [List.length_tail, length]; rfl⟩]
  · rw [Receiver.take_readyOut, if_neg]
    rintro ⟨-, falls⟩
    rw [List.length_tail, show Config.readyOnAt = 96 from rfl] at falls
    omega

end

/-! ## Bytes -/

section
variable {rx : Receiver} {b : Byte}

theorem Receiver.takeByte_of_high (high : rx.pair = .highNext) (sound : Bool) :
    rx.takeByte b sound = { rx with pair := .lowNext b sound } := by
  unfold Receiver.takeByte
  rw [high]

theorem Receiver.takeByte_of_low {high : Byte} {highSound : Bool} (low : rx.pair = .lowNext high highSound)
    (sound : Bool) : rx.takeByte b sound =
      { rx with pair := .highNext }.offer (if highSound && sound then some (high ++ b) else none) := by
  unfold Receiver.takeByte
  rw [low]
  rfl

theorem Receiver.toMark_of_none (quiet : rx.framing = none ∨ rx.recv = .disabled) :
    rx.toMark = { rx with breakLatch := false } := by
  unfold Receiver.toMark
  dsimp only
  split
  · rfl
  · next b held => exact if_pos (quiet.resolve_left (by simp [held]))

theorem Receiver.toMark_of_held (held : rx.framing = some b) (enabled : rx.recv ≠ .disabled) :
    rx.toMark = { rx with breakLatch := false, framing := none }.takeByte b false := by
  unfold Receiver.toMark
  dsimp only
  rw [held]
  exact if_neg enabled

theorem State.onLink_eq (s : State) (i : Fin 4) (f : Link → Link) :
    s.onLink i f = { s with links := s.links.set i (f s.links[i]) } := rfl

/-- Settles O31: a byte is held, kept as the first of its pair, or completes its word. -/
theorem bytesPairIntoWords : Obligations.BytesPairIntoWords := by
  unfold Obligations.BytesPairIntoWords
  intro s i b pe fe
  have received : exec (.byteReceived i b pe fe) s = .next (s.receiveByte i b pe fe) := exec_byteReceived s i b pe fe
  refine ⟨fun disabled => ?_, fun enabled quiet line =>
    ⟨s.links[i].rx.byte b pe fe, received, fun framed => ?_, fun clean first => ?_, fun high sound clean second => ?_⟩⟩
  · rw [received]
    unfold State.receiveByte
    rw [State.onLink_eq, show s.links[i].rx.byte b pe fe = s.links[i].rx from if_pos (.inl disabled)]
    exact congrArg Host.Outcome.next (by rw [set_self])
  all_goals
    have taken : s.links[i].rx.byte b pe fe =
        if fe = true then { s.links[i].rx with framing := some b } else s.links[i].rx.takeByte b (!pe) :=
      if_neg (by simp [-Fin.getElem_fin, enabled, quiet, line])
    rw [taken]
  · exact if_pos framed
  · rw [if_neg (by simp [clean]), Receiver.takeByte_of_high first]
  · rw [if_neg (by simp [clean]), Receiver.takeByte_of_low second]
    congr 1
    cases sound <;> cases pe <;> rfl

/-- Settles O33: a held byte is taken as a damaged one. -/
theorem returnToMarkTakesTheHeldByte : Obligations.ReturnToMarkTakesTheHeldByte := by
  unfold Obligations.ReturnToMarkTakesTheHeldByte
  intro s i
  have returned {rx : Receiver} (mark : s.links[i].rx.toMark = rx) : exec (.lineReturnToMark i) s =
      .next { s with links := s.links.set i { s.links[i] with rx := rx } } := by
    rw [exec_lineReturnToMark]
    unfold State.returnToMark
    rw [State.onLink_eq, mark]
  refine ⟨fun quiet => returned (Receiver.toMark_of_none quiet), fun b held enabled => ⟨fun first => ?_,
    fun high sound second => ?_⟩⟩
  · exact returned ((Receiver.toMark_of_held held enabled).trans
      (Receiver.takeByte_of_high (rx := { s.links[i].rx with breakLatch := false, framing := none }) first false))
  · refine returned ((Receiver.toMark_of_held held enabled).trans ?_)
    rw [Receiver.takeByte_of_low (rx := { s.links[i].rx with breakLatch := false, framing := none }) second, Bool.and_false]
    rfl

end

/-! ## A break -/

section
variable {s : State} {i : Fin 4}

theorem Bench.breakLink_link (b : Bench) : b.breakLink.link =
    { b.link with rx := b.link.rx.afterBreak, setting := idleSetting, measure := .empty } := rfl

theorem Bench.breakLink_table_of_none {b : Bench} (none : b.link.setting.galley = none) : b.breakLink.table = b.table := by
  unfold Bench.breakLink
  dsimp only
  rw [none]

theorem Bench.breakLink_table_of_some {b : Bench} {g : Fin 32} {r : Galley} (current : b.link.setting.galley = some g)
    (hr : b.table.records[g] = some r) :
    b.breakLink.table = if r.ended then b.table else b.table.kill g .abandoned := by
  unfold Bench.breakLink
  dsimp only
  rw [current]
  dsimp only
  rw [hr]

/-- Settles O34: the receiver, the context and the slot are given up, and a galley that has not ended is killed. -/
theorem breakResetsItsLink : Obligations.BreakResetsItsLink := by
  unfold Obligations.BreakResetsItsLink
  intro s i
  have signalled : exec (.breakSignal i) s = .next (s.takeBreak i) := exec_breakSignal s i
  refine ⟨fun ignored => ?_, fun enabled fresh => ?_⟩
  · rw [signalled]
    unfold State.takeBreak
    rw [if_neg]
    unfold Receiver.breakTaken
    rcases ignored with h | h <;> simp [-Fin.getElem_fin, h]
  · have taken : s.links[i].rx.breakTaken = true := by
      unfold Receiver.breakTaken
      simp [-Fin.getElem_fin, enabled, fresh]
    refine ⟨s.putBench (s.bench i).breakLink, ?_, ?_, fun j other => ?_, fun none => ?_, fun g r current hr => ⟨fun ended => ?_,
      fun open_ live => ?_, fun open_ exposing fresh => ?_, fun h other => ?_⟩, rfl, rfl, rfl, rfl, rfl⟩
    · rw [signalled]
      exact congrArg Host.Outcome.next (if_pos taken)
    · exact State.putBench_own s (s.bench i).breakLink (show (s.bench i).breakLink.id = i from rfl)
    · exact State.putBench_other s _ (Ne.symm other)
    · exact Bench.breakLink_table_of_none (b := s.bench i) none
    all_goals
      have table : (s.putBench (s.bench i).breakLink).table = if r.ended then s.table else s.table.kill g .abandoned :=
        Bench.breakLink_table_of_some (b := s.bench i) current hr
      rw [table]
    · exact if_pos ended
    · have idle : r.state ≠ .exposing ∧ r.state ≠ .done := by
        rcases live with e | e | e <;> rw [e] <;> decide
      rw [if_neg (by simp [open_]), GalleyTable.kill_of_live hr idle.1 idle.2, GalleyTable.finish_eq hr]
      exact ⟨set_same _ _ _, rfl⟩
    · rw [if_neg (by simp [open_]), GalleyTable.kill_of_exposing hr exposing, if_neg (by simp [fresh]),
        GalleyTable.modify_of_some hr]
      exact ⟨set_same _ _ _, rfl⟩
    · split
      · rfl
      · exact GalleyTable.kill_other _ (Ne.symm other) _

end

end Sys2Proof.Machine

/-! The obligations about the transmitters: the taking of replies, the sending of their bytes, and what a complete reply
brings about (R12, R18, R127, R128, R142 to R144). -/

namespace Sys2Proof.Machine

/-! ## The table through the reactions -/

section
variable {s u : State} {i : Fin 4} {g : Fin 32} {r : Galley} {m : MeasureResult}

/-- A walk that wakes for no galley waits on. -/
theorem State.wakeWalk_of_no_galley (none : s.imaging.galley = none) : s.wakeWalk.imaging.unit = s.imaging.unit := by
  by_cases h : s.imaging.unit = .waitingLines
  · have idle : s.film.galley = .none := by
      unfold Film.galley
      rw [show s.film.img.galley = .none from none]
      rfl
    rw [State.wakeWalk_of_waiting h, State.putFilm_imaging]
    unfold Film.betweenLines
    dsimp only
    rw [show (s.film.withImg fun m => { m with pos := 0, inProgress := false }).galley = .none from idle]
    rfl
  · rw [State.wakeWalk_of_not_waiting h]

/-- From a state in which nothing is left undone the reactions change no record before the replies are taken. -/
theorem Settled.round_table (h : Settled s) (imaging : u.imaging = s.imaging) (table : u.table = s.table) :
    u.wakeWalk.selectionRound.table = s.table := by
  rcases u.wakeWalk.selectionRound_cases with ⟨e, -⟩ | ⟨g, r, unit, galley, chosen, -, -⟩
  · rw [e, State.wakeWalk_table, table]
  · have idle : u.imaging.galley = none := by rw [State.wakeWalk_imaging] at galley; exact galley
    rw [State.wakeWalk_of_no_galley idle, imaging] at unit
    rw [State.wakeWalk_table, table, h.selection unit (imaging ▸ idle)] at chosen
    cases chosen

theorem GalleyTable.marked_of_lowest {t : GalleyTable} (hr : t.records[g] = some r) (own : r.link = i)
    (mark : r.mark = true)
    (lowest : ∀ h : Fin 32, h < g → ∀ q, t.records[h] = some q → q.link = i → q.mark = false) : t.marked i = some g := by
  unfold GalleyTable.marked
  rw [find?_rising (by decide) mem_recordIds]
  refine ⟨by rw [hr]; simp [own, mark], fun h less => ?_⟩
  cases hq : t.records[h] with
  | none => rfl
  | some q =>
    by_cases same : q.link = i
    · simp [lowest h less q hq same]
    · simp [same]

/-! ## A reply taken in the reactions (R127, R143) -/

theorem State.settle_link_of_busy (busy : ¬ (s.links[i].tx.state = .idle ∧ s.links[i].tx.feReady = true)) :
    s.settle.links[i] = s.links[i] := by
  obtain ⟨t, -, link, -⟩ := s.settle_reply i
  rw [link, takeReply_of_busy busy]

theorem State.settle_link_of_result (idle : s.links[i].tx.state = .idle) (ready : s.links[i].tx.feReady = true)
    (result : s.links[i].measure = .waiting m) :
    s.settle.links[i] =
      { s.links[i] with measure := .sending m, tx := s.links[i].tx.start .result (resultWords m) } := by
  obtain ⟨t, -, link, -⟩ := s.settle_reply i
  rw [link, takeReply_of_result idle ready result]

theorem State.settle_measure (noResult : ∀ m, s.links[i].measure ≠ .waiting m) :
    s.settle.links[i].measure = s.links[i].measure := by
  obtain ⟨t, -, link, -⟩ := s.settle_reply i
  rw [link]
  rcases takeReply_cases t i s.links[i] with ⟨e, -⟩ | ⟨m, result, -⟩ | ⟨e, -⟩ | ⟨g, r, -, -, -, e⟩
  · rw [e]
  · exact absurd result (noResult m)
  · rw [e]
  · rw [e]

/-- An idle transmitter takes the marked record of lowest index. -/
theorem Settled.report_taken (h : Settled s) (imaging : u.imaging = s.imaging) (table : u.table = s.table)
    (idle : u.links[i].tx.state = .idle) (ready : u.links[i].tx.feReady = true)
    (noResult : ∀ m, u.links[i].measure ≠ .waiting m) (hr : s.table.records[g] = some r) (own : r.link = i)
    (mark : r.mark = true)
    (lowest : ∀ h : Fin 32, h < g → ∀ q, s.table.records[h] = some q → q.link = i → q.mark = false) :
    u.settle.table.records[g] = some { r with mark := false } ∧
      u.settle.links[i] =
        { u.links[i] with tx := u.links[i].tx.start (.report g (decide (r.state = .done))) (reportWords g r) } := by
  obtain ⟨t, before, link, after⟩ := u.settle_reply i
  rw [h.round_table imaging table] at before
  have marked : t.marked i = some g := before.marked.symm.trans (GalleyTable.marked_of_lowest hr own mark lowest)
  have record : t.records[g] = some r := (before g r own).1 hr
  rw [takeReply_of_report idle ready noResult marked record] at link after
  refine ⟨(after g { r with mark := false } own).1 ?_, link⟩
  rw [GalleyTable.modify_of_some record]
  exact set_same _ _ _

theorem reportWords_first (g : Fin 32) (r : Galley) : (replyBytes (reportWords g r)).head? = some 0x01#8 := by
  have : ∀ g : Fin 32, hiByte (packWord 1 g.val) = 0x01#8 := by decide
  exact congrArg some (this g)

theorem resultWords_first (m : MeasureResult) : (replyBytes (resultWords m)).head? = some 0x02#8 := rfl

/-! ## The front end's ready line (R143, R144) -/

theorem Transmitter.readyOn_of_idle {tx : Transmitter} (idle : tx.state = .idle) : tx.readyOn = { tx with feReady := true } := by
  unfold Transmitter.readyOn
  rw [idle]

theorem Transmitter.readyOn_of_held {tx : Transmitter} (held : tx.state = .held) :
    tx.readyOn =
      { tx with feReady := true, state := .sending, shift := tx.buffer.head?, buffer := tx.buffer.tail } := by
  unfold Transmitter.readyOn
  rw [held]

theorem State.onLink_own (s : State) (i : Fin 4) (f : Link → Link) : (s.onLink i f).links[i] = f s.links[i] := by
  rw [State.onLink_eq]
  exact set_same _ _ _

theorem State.onLink_other (s : State) {i j : Fin 4} (other : j ≠ i) (f : Link → Link) :
    (s.onLink i f).links[j] = s.links[j] := set_other _ (Ne.symm other) _

/-- Settles O35: what an idle transmitter takes is decided in the reactions of the event. -/
theorem frontEndReadyMovesReplies : Obligations.FrontEndReadyMovesReplies := by
  unfold Obligations.FrontEndReadyMovesReplies
  intro s i
  have on := exec_frontEndReadyOn s i
  have own (idle : s.links[i].tx.state = .idle) :
      (s.onLink i fun l => { l with tx := l.tx.readyOn }).links[i] =
        { s.links[i] with tx := { s.links[i].tx with feReady := true } } := by
    rw [State.onLink_own, Transmitter.readyOn_of_idle idle]
  refine ⟨fun m idle result => ⟨_, on, ?_⟩, fun g r idle noResult settled hr hl mark lowest => ⟨_, on, ?_⟩,
    fun b bs held buffer => ⟨_, on, ?_⟩, _, exec_frontEndReadyOff s i, ?_⟩
  · rw [State.settle_link_of_result (m := m) (by rw [own idle]; exact idle) (by rw [own idle])
      (by rw [own idle]; exact result), own idle]
    exact ⟨rfl, rfl, rfl, rfl, resultWords_first m, rfl⟩
  · obtain ⟨record, link⟩ := settled.report_taken (u := s.onLink i fun l => { l with tx := l.tx.readyOn }) rfl rfl
      (by rw [own idle]; exact idle) (by rw [own idle]) (by rw [own idle]; exact noResult) hr hl mark lowest
    rw [link, own idle]
    exact ⟨record, rfl, rfl, reportWords_first g r, rfl, rfl⟩
  · have sends : (s.onLink i fun l => { l with tx := l.tx.readyOn }).links[i].tx =
        { s.links[i].tx with feReady := true, state := .sending, shift := some b, buffer := bs } := by
      rw [State.onLink_own, Transmitter.readyOn_of_held held, buffer]
      rfl
    rw [State.settle_link_of_busy (by rw [sends]; simp), sends]
  · rw [State.onLink_own]
    exact ⟨rfl, rfl, rfl, rfl, rfl, fun j other => State.onLink_other s other _, rfl, rfl⟩

/-! ## A reply sent (R142, R144) -/

/-- A link whose reply is complete. -/
def Link.replied (l : Link) : Link :=
  { l with tx := l.tx.finish, measure := if l.tx.reply = some .result then l.measure.sent else l.measure }

/-- The reply is no final report: the link alone changes. -/
theorem State.completeReply_of_other (other : ∀ g, s.links[i].tx.reply ≠ some (.report g true)) :
    s.completeReply i = s.onLink i Link.replied := by
  have quiet (no : s.links[i].tx.reply ≠ some .result) :
      (s.onLink i fun l => { l with tx := l.tx.finish }) = s.onLink i Link.replied := by
    rw [State.onLink_eq, State.onLink_eq]
    unfold Link.replied
    rw [if_neg no]
  unfold State.completeReply
  dsimp only
  split
  · next h => exact quiet (by rw [h]; exact fun e => by cases e)
  · next h =>
    rw [State.onLink_eq, State.onLink_eq, State.onLink_eq]
    unfold Link.replied
    rw [if_pos h]
    simp
  · next h => exact quiet (by rw [h]; exact fun e => by cases e)
  · next g h => exact absurd h (other g)

theorem State.completeReply_of_final (final : s.links[i].tx.reply = some (.report g true)) :
    s.completeReply i = (s.onLink i Link.replied).freeRecord g := by
  unfold State.completeReply
  dsimp only
  rw [final]
  dsimp only
  rw [State.onLink_eq, State.onLink_eq]
  unfold Link.replied
  rw [if_neg (by rw [final]; exact fun e => by cases e)]

theorem State.completeReply_links (s : State) (i : Fin 4) :
    (s.completeReply i).links = (s.onLink i Link.replied).links := by
  by_cases final : ∃ g, s.links[i].tx.reply = some (.report g true)
  · obtain ⟨g, final⟩ := final
    rw [State.completeReply_of_final final, State.freeRecord_eq]
  · rw [State.completeReply_of_other (not_exists.1 final)]

theorem State.completeReply_own (s : State) (i : Fin 4) : (s.completeReply i).links[i] = s.links[i].replied := by
  rw [State.completeReply_links]
  exact State.onLink_own s i _

theorem State.byteSent_of_more {b c : Byte} {cs : List Byte} (sent : s.links[i].tx.shift = some b)
    (more : s.links[i].tx.buffer = c :: cs) : s.byteSent i = s.onLink i fun l => { l with tx := l.tx.nextByte } := by
  unfold State.byteSent
  rw [if_neg (by rw [sent]; exact fun e => by cases e), more]

theorem State.byteSent_of_last {b : Byte} (sent : s.links[i].tx.shift = some b) (last : s.links[i].tx.buffer = []) :
    s.byteSent i = (s.completeReply i).settle := by
  unfold State.byteSent
  rw [if_neg (by rw [sent]; exact fun e => by cases e), last]

theorem Link.replied_measure_of_other {l : Link} (other : l.tx.reply ≠ some .result ∨ ∀ m, l.measure ≠ .sending m) :
    l.replied.measure = l.measure := by
  unfold Link.replied
  dsimp only
  split
  · next result =>
    have idle := other.resolve_left (absurd result)
    unfold MeasureSlot.sent
    split
    · next m sending => exact absurd sending (idle m)
    all_goals next h => exact h.symm
  · rfl

theorem Link.replied_measure_of_sending {l : Link} (result : l.tx.reply = some .result) (sending : l.measure = .sending m) :
    l.replied.measure = .empty := by
  unfold Link.replied
  dsimp only
  rw [if_pos result, sending]
  rfl

/-- Settles O36: a byte follows, or the reply is complete and the reactions may take the next. -/
theorem transmitterSendsByteByByte : Obligations.TransmitterSendsByteByByte := by
  unfold Obligations.TransmitterSendsByteByByte
  intro s i b sent
  have event : exec (.transmitByteSent i) s = .next (s.byteSent i) := exec_transmitByteSent s i
  have own := s.completeReply_own i
  refine ⟨fun c cs more ready => ?_, fun c cs more busy => ?_, fun m last result sending => ?_, fun last =>
    ⟨s.completeReply i, ?_, ?_, fun m result sending => ?_, fun other => ?_, fun other => ?_, fun j other => ?_,
      fun busy => ?_, fun m ready waiting => ?_, fun g r settled ready other noResult hr hl mark lowest => ?_⟩⟩
  · rw [event, State.byteSent_of_more sent more, State.onLink_eq]
    unfold Transmitter.nextByte
    rw [if_pos ready, more]
    rfl
  · rw [event, State.byteSent_of_more sent more, State.onLink_eq]
    unfold Transmitter.nextByte
    rw [if_neg (by simp [-Fin.getElem_fin, busy])]
  · have empty : (s.completeReply i).links[i].measure = .empty := by
      rw [own]
      exact Link.replied_measure_of_sending result sending
    have idle : ∀ g, s.links[i].tx.reply ≠ some (.report g true) := by
      rw [result]
      exact fun g e => by cases e
    refine ⟨_, event, ?_, ?_⟩
    · rw [State.byteSent_of_last sent last, State.settle_measure (by rw [empty]; exact fun m e => by cases e), empty]
    · rw [State.byteSent_of_last sent last, State.settle_slots, State.completeReply_of_other idle]
      rfl
  · rw [event, State.byteSent_of_last sent last]
  · rw [own]
    rfl
  · rw [own]
    exact Link.replied_measure_of_sending result sending
  · rw [own]
    exact Link.replied_measure_of_other other
  · rw [State.completeReply_of_other other]
    rfl
  · rw [State.completeReply_links]
    exact State.onLink_other s other _
  · refine State.settle_link_of_busy fun ⟨_, ready⟩ => ?_
    rw [own] at ready
    exact absurd (ready.symm.trans busy) (by decide)
  · have kept : s.links[i].replied.measure = .waiting m := by
      rw [Link.replied_measure_of_other (.inr fun n e => (by cases waiting.symm.trans e)), waiting]
    rw [State.settle_link_of_result (by rw [own]; rfl) (by rw [own]; exact ready) (by rw [own]; exact kept)]
    exact ⟨rfl, rfl, rfl, resultWords_first m, rfl⟩
  · have quiet : ∀ m, s.links[i].replied.measure ≠ .waiting m := fun m e => by
      by_cases sending : s.links[i].tx.reply = some .result ∧ ∃ n, s.links[i].measure = .sending n
      · obtain ⟨result, n, sending⟩ := sending
        rw [Link.replied_measure_of_sending result sending] at e
        cases e
      · rw [Link.replied_measure_of_other (by
          by_cases result : s.links[i].tx.reply = some .result
          · exact .inr fun n h => sending ⟨result, n, h⟩
          · exact .inl result)] at e
        exact noResult m e
    obtain ⟨record, link⟩ := settled.report_taken (u := s.completeReply i) (i := i)
      (by rw [State.completeReply_of_other other]; rfl) (by rw [State.completeReply_of_other other]; rfl)
      (by rw [own]; rfl) (by rw [own]; exact ready) (by rw [own]; exact quiet) hr hl mark lowest
    rw [link]
    exact ⟨record, rfl, rfl, reportWords_first g r, rfl⟩

/-! ## A record freed (R12, R18, R128) -/

/-- A slot after a galley that used it has given it up (R12, R18). -/
def Slot.givenUp (x : Slot) : Slot :=
  if x.refCount - 1 = 0 ∧ x.state = .retiring then emptySlotRecord else { x with refCount := x.refCount - 1 }

theorem State.countDown_slots (s : State) (k : Fin 8) : (s.countDown k).slots = s.slots.set k s.slots[k].givenUp := by
  unfold State.countDown Slot.givenUp
  dsimp only
  split
  · rfl
  · rfl

theorem State.countDownAll_slot {l : List (Fin 8)} (nodup : l.Nodup) (k : Fin 8) :
    (s.countDownAll l).slots[k] = if k ∈ l then s.slots[k].givenUp else s.slots[k] := by
  induction l generalizing s with
  | nil => rfl
  | cons j l ih =>
    obtain ⟨fresh, nodup⟩ := List.nodup_cons.1 nodup
    rw [State.countDownAll, ih nodup, State.countDown_slots]
    by_cases same : k = j
    · subst same
      rw [if_neg fresh, if_pos List.mem_cons_self, set_same]
    · rw [set_other _ (Ne.symm same)]
      simp only [List.mem_cons, same, false_or]

theorem State.freeRecord_of_some (hr : s.table.records[g] = some r) :
    s.freeRecord g = { s.countDownAll r.useSet with
      table := { s.table with records := s.table.records.set g none, order := s.table.order.filter (· ≠ g) } } := by
  unfold State.freeRecord
  rw [hr]

/-- The reactions put no record where none is, and change no allocation order. -/
theorem State.settle_recordFree (free : s.table.records[g] = none) :
    s.settle.table.records[g] = none ∧ s.settle.table.order = s.table.order := by
  have marks := s.settle_marksTaken
  rcases s.wakeWalk.selectionRound_cases with ⟨e, -⟩ | ⟨h, q, -, -, -, hq, e⟩
  · rw [e] at marks
    exact ⟨marks.free g (by rw [State.wakeWalk_table]; exact free), marks.order.trans (by rw [State.wakeWalk_table])⟩
  · have other : h ≠ g := by
      rintro rfl
      rw [State.wakeWalk_table, free] at hq
      cases hq
    rw [e] at marks
    have selected := GalleyTable.select_eq hq
    refine ⟨marks.free g ?_, marks.order.trans ?_⟩
    · show (s.wakeWalk.table.select h).records[g] = none
      rw [selected]
      refine (set_other _ other _).trans ?_
      rw [State.wakeWalk_table]
      exact free
    · show (s.wakeWalk.table.select h).order = s.table.order
      rw [selected]
      show s.wakeWalk.table.order = s.table.order
      rw [State.wakeWalk_table]

/-- Settles O37: the record is freed before the reactions, which leave a free record free. -/
theorem finalReportFreesItsRecord : Obligations.FinalReportFreesItsRecord := by
  unfold Obligations.FinalReportFreesItsRecord
  intro s i b g r sent last final hr nodup
  have completed := State.completeReply_of_final final
  have freed := State.freeRecord_of_some (s := s.onLink i Link.replied) hr
  have table : (s.completeReply i).table =
      { s.table with records := s.table.records.set g none, order := s.table.order.filter (· ≠ g) } := by
    rw [completed, freed]
    rfl
  have slots : (s.completeReply i).slots = ((s.onLink i Link.replied).countDownAll r.useSet).slots := by
    rw [completed, freed]
  obtain ⟨free, order⟩ := State.settle_recordFree (s := s.completeReply i) (g := g) (by rw [table]; exact set_same _ _ _)
  refine ⟨s.byteSent i, exec_transmitByteSent s i, ?_⟩
  rw [State.byteSent_of_last sent last]
  refine ⟨free, ?_, fun k => ?_, ?_, ?_⟩
  · rw [order, table]
    simp
  · rw [State.settle_slots, slots, State.countDownAll_slot nodup]
    rfl
  · rw [State.settle_banks, State.completeReply_eq]
  · rw [State.settle_port, State.completeReply_eq]

end

end Sys2Proof.Machine

/-! Headers (R38 to R41, R110, R111): a word taken, the header complete, and the record that it is given. -/

namespace Sys2Proof.Machine

/-! ## A turn that takes a word -/

section
variable {s : State} {i : Fin 4} {p : ParserState} {c : Option Word} {drop : Nat} {rest : List RingEntry} {b : Bench}

theorem strayAfter_of_not_idle (busy : s.links[i].setting.parser ≠ .idle) : strayAfter s i drop 0 = s.links[i].rx.stray := by
  unfold strayAfter
  rw [if_neg busy, if_pos rfl]

theorem Bench.taken_stray (s : State) (i : Fin 4) (drop : Nat) (rest : List RingEntry) :
    ((s.bench i).taken drop rest).link.rx.stray = strayAfter s i drop 0 := by
  show (if s.links[i].setting.parser = .idle then min (s.links[i].rx.stray + drop) 65535 else s.links[i].rx.stray) = _
  unfold strayAfter
  rw [if_pos rfl]
  rfl

/-- A turn whose work on its link left slots, transmitter and receiver as the taking of the entry left them. -/
theorem TurnFrame.of_taken (id : b.id = i) (slots : b.slots = s.slots)
    (rx : b.link.rx = ((s.bench i).taken drop rest).link.rx) (tx : b.link.tx = s.links[i].tx) :
    let u : State := { s.putBench b with rotation := i + 1 }
    TurnFrame s u i rest ∧ u.links[i].rx.stray = strayAfter s i drop 0 ∧ u.links[i].measure = b.link.measure ∧
      u.links[i].setting = b.link.setting := by
  dsimp only
  rw [State.putBench_link id]
  refine ⟨.of_bench id slots ?_ tx, ?_, rfl, rfl⟩
  · rw [rx]
    rfl
  · rw [rx]
    exact Bench.taken_stray s i drop rest

/-! ## A word in a header (R38, R39) -/

/-- The setting context after a header word (R39). -/
def Setting.headerWord (x : Setting) (c : Option Word) : Setting :=
  { x with header := x.header ++ [(takeHeaderWord (x.header.length + 1) c x.heldFlags).1]
           heldFlags := (takeHeaderWord (x.header.length + 1) c x.heldFlags).2 }

theorem Bench.takeHeader_of_short (short : b.link.setting.header.length < 16) :
    b.takeHeader c = b.withSetting fun x => x.headerWord c :=
  if_neg (Nat.not_le.2 (show b.link.setting.header.length + 1 < 17 by omega))

theorem Bench.takeHeader_of_last (last : b.link.setting.header.length = 16) :
    b.takeHeader c = (b.withSetting fun x => x.headerWord c).completeHeader :=
  if_pos (show 17 ≤ b.link.setting.header.length + 1 by omega)

/-- A turn that takes a header word deals with it in the state of the taking. -/
theorem WordTurn.exec_header (turn : WordTurn s i .header c drop rest) :
    exec .setterTurn s =
      .next (State.settle { s.putBench (((s.bench i).taken drop rest).takeHeader c) with rotation := i + 1 }) := by
  have header : (s.bench i).parser = .header := turn.parser
  have goesOn : (s.bench i).measureMustWait { code := c, marker := false, drop := drop } = false := by
    unfold Bench.measureMustWait
    rw [header]
    rfl
  rw [turn.exec_eq (.inr (.inl rfl)) goesOn]
  unfold Bench.dealWord
  rw [show ((s.bench i).taken drop rest).parser = .header from turn.parser]

/-! ## A header complete (R40, R41, R110, R111) -/

/-- The word spaces brought into order, with the flag of the change (R40). -/
def Setting.spaced (x : Setting) : Setting :=
  { x with heldFlags := addFlagIf (spacesAdjusted x.header) x.heldFlags .clamped }

theorem Bench.completeHeader_of_none (none : ∀ h : Fin 32, b.table.records[h] ≠ none) :
    b.completeHeader = b.withSetting fun x => { x.spaced with parser := .waitRecord } := by
  unfold Bench.completeHeader
  dsimp only
  split
  · next g found => cases ((GalleyTable.lowestFree_none b.table).2 none).symm.trans found
  · rfl

theorem Bench.completeHeader_of_free {g : Fin 32} (free : b.table.records[g] = none)
    (lowest : ∀ h : Fin 32, h < g → b.table.records[h] ≠ none) :
    b.completeHeader = (b.withSetting Setting.spaced).allocate g := by
  unfold Bench.completeHeader
  dsimp only
  have least := GalleyTable.lowestFree_some free lowest
  split
  · next k found =>
    cases least.symm.trans found
    rfl
  · next found => cases least.symm.trans found

theorem Bench.raiseIf_table_eq {g : Fin 32} {r : Galley} (galley : b.link.setting.galley = some g)
    (hr : b.table.records[g] = some r) (k : Bool) (f : GalleyFlag) :
    (b.raiseIf k f).table = { b.table with records := b.table.records.set g (some (if k then r.raiseFlag f else r)) } := by
  unfold Bench.raiseIf Bench.raise
  cases k with
  | false =>
    rw [if_neg Bool.false_ne_true, if_neg Bool.false_ne_true, ← hr, set_self]
  | true =>
    rw [if_pos rfl, if_pos rfl, galley]
    exact GalleyTable.modify_of_some hr _

theorem Bench.raiseIf_eq (b : Bench) (k : Bool) (f : GalleyFlag) :
    b.raiseIf k f = { b with table := (b.raiseIf k f).table } := by
  unfold Bench.raiseIf Bench.raise
  repeat' split
  all_goals rfl

/-- The setting context that a header gives with the record g (R41). -/
def Setting.allocated (x : Setting) (slots : Vector Slot 8) (g : Fin 32) : Setting :=
  { x with parser := .inGalley, galley := some g, header := [], heldFlags := 0#16
           ctx := some (headerContext slots x.header), stack := [], overflow := 0, extraLead := 0, buffer := []
           points := [], line := emptyLine, ladder := 0, held := none }

/-- The flag FONT MISSING is due on the new galley: no slot yields its font (R41). -/
def Setting.fontMissing (x : Setting) (slots : Vector Slot 8) : Bool := (headerContext slots x.header).font.isNone

/-- The record that a header is given (R110, R111). -/
def Bench.newRecord (b : Bench) : Galley :=
  let r := newGalley b.id b.link.setting.header b.link.setting.heldFlags
  if b.link.setting.fontMissing b.slots then r.raiseFlag .fontMissing else r

theorem Bench.allocate_eq (b : Bench) (g : Fin 32) :
    b.allocate g = { b.withSetting (fun x => x.allocated b.slots g) with
      table := { b.table with records := b.table.records.set g (some b.newRecord), order := b.table.order ++ [g] } } := by
  have own : (b.table.allocate g (newGalley b.id b.link.setting.header b.link.setting.heldFlags)).records[g] =
      some (newGalley b.id b.link.setting.header b.link.setting.heldFlags) := set_same _ _ _
  show Bench.raiseIf { b.withSetting (fun x => x.allocated b.slots g) with
      table := b.table.allocate g (newGalley b.id b.link.setting.header b.link.setting.heldFlags) }
    (b.link.setting.fontMissing b.slots) .fontMissing = _
  rw [Bench.raiseIf_eq, Bench.raiseIf_table_eq (g := g) rfl own]
  unfold GalleyTable.allocate Bench.newRecord
  simp only [Vector.set_set]

theorem Bench.newRecord_flags (b : Bench) :
    FlagsRaised (newGalley b.id b.link.setting.header b.link.setting.heldFlags) b.newRecord fun e =>
      e = .fontMissing ∧ b.link.setting.fontMissing b.slots = true :=
  Galley.raiseFlag_raised _ _ _

/-! ## The seventeenth word -/

theorem headerValue_append {vals : List Nat} {v n : Nat} (low : 1 ≤ n) (high : n ≤ vals.length) :
    headerValue (vals ++ [v]) n = vals.getD (n - 1) 0 := by
  unfold headerValue
  rw [List.getD_append _ _ _ _ (by omega)]

theorem headerValue_last (vals : List Nat) (v : Nat) : headerValue (vals ++ [v]) (vals.length + 1) = v := by
  simp [headerValue]

theorem quadOf_eq (n : Nat) :
    quadOf n = if n = 1 then .left else if n = 2 then .right else if n = 3 then .centre else .justify := by
  unfold quadOf
  split
  · rfl
  · rfl
  · rfl
  · next h1 h2 h3 => rw [if_neg h1, if_neg h2, if_neg h3]

/-- The record of a header of sixteen values and its hyphen code (R39, R40, R110). -/
theorem newGalley_header {vals : List Nat} (length : vals.length = 16) (j : Fin 4) (hyphen : Nat) (flags : Word) :
    newGalley j (vals ++ [hyphen]) flags = { newGalley j [] 0#16 with
      number := vals.getD 0 0, cls := vals.getD 1 0, deadline := vals.getD 2 0, flags := flags
      header :=
        { baseRight := decide (vals.getD 3 0 = 1)
          quad := if vals.getD 4 0 = 1 then .left else if vals.getD 4 0 = 2 then .right
            else if vals.getD 4 0 = 3 then .centre else .justify
          measure := vals.getD 5 0, leading := vals.getD 6 0, font := vals.getD 7 0, pointSize := vals.getD 8 0
          setSize := vals.getD 9 0, spaceMin := min (vals.getD 10 0) (vals.getD 11 0), spaceNormal := vals.getD 11 0
          spaceMax := max (vals.getD 12 0) (vals.getD 11 0), letterLimit := vals.getD 13 0
          elongationLimit := vals.getD 14 0, ladderLimit := vals.getD 15 0, hyphen := BitVec.ofNat 16 hyphen } } := by
  have field {n : Nat} (low : 1 ≤ n) (high : n ≤ 16) : headerValue (vals ++ [hyphen]) n = vals.getD (n - 1) 0 :=
    headerValue_append low (length ▸ high)
  have last : headerValue (vals ++ [hyphen]) 17 = hyphen := by
    have := headerValue_last vals hyphen
    rwa [length] at this
  unfold newGalley headerOf
  rw [last, quadOf_eq]
  simp only [field, Nat.reduceLeDiff, Nat.reduceSub, le_refl]
  rfl

/-- The setting context of a header whose last word has been taken (R39, R40). -/
def Setting.completed (x : Setting) (c : Option Word) : Setting := (x.headerWord c).spaced

section
variable {x : Setting}

theorem Setting.completed_header (sixteen : x.header.length = 16) :
    (x.completed c).header = x.header ++ [hyphenField c] := by
  show x.header ++ [(takeHeaderWord (x.header.length + 1) c x.heldFlags).1] = _
  rw [sixteen, (takeHeaderWord_hyphen c x.heldFlags).1]

theorem Setting.completed_eq (sixteen : x.header.length = 16) :
    x.completed c = { x with header := x.header ++ [hyphenField c], heldFlags := (x.completed c).heldFlags } := by
  rw [← Setting.completed_header sixteen]
  rfl

theorem spacesAdjusted_iff {vals : List Nat} (length : vals.length = 16) (hyphen : Nat) :
    spacesAdjusted (vals ++ [hyphen]) = true ↔
      vals.getD 11 0 < vals.getD 10 0 ∨ vals.getD 12 0 < vals.getD 11 0 := by
  unfold spacesAdjusted
  rw [Bool.or_eq_true, decide_eq_true_iff, decide_eq_true_iff, headerValue_append (by omega) (by omega),
    headerValue_append (by omega) (by omega), headerValue_append (by omega) (by omega)]

theorem Setting.completed_heldFlags (x : Setting) (c : Option Word) : (x.completed c).heldFlags =
    addFlagIf (spacesAdjusted (x.completed c).header) (takeHeaderWord (x.header.length + 1) c x.heldFlags).2 .clamped :=
  rfl

theorem Setting.completed_flags (sixteen : x.header.length = 16) (e : GalleyFlag) :
    hasFlag (x.completed c).heldFlags e = true ↔ hasFlag x.heldFlags e = true ∨ (e = .charError ∧ c = none) ∨
      (e = .clamped ∧ (c = none ∨ (∃ w, c = some w ∧ w ≠ 0#16 ∧ (w.toNat < 0x20 ∨ 0xFF00 ≤ w.toNat)) ∨
        x.header.getD 11 0 < x.header.getD 10 0 ∨ x.header.getD 12 0 < x.header.getD 11 0)) := by
  rw [Setting.completed_heldFlags, hasFlag_addFlagIf, Setting.completed_header sixteen, spacesAdjusted_iff sixteen, sixteen,
    (takeHeaderWord_hyphen c x.heldFlags).2 e]
  generalize (hasFlag x.heldFlags e = true) = held
  generalize (x.header.getD 11 0 < x.header.getD 10 0 ∨ x.header.getD 12 0 < x.header.getD 11 0) = adjusted
  generalize (∃ w, c = some w ∧ w ≠ 0#16 ∧ (w.toNat < 0x20 ∨ 0xFF00 ≤ w.toNat)) = outside
  generalize (c = none) = damaged
  tauto

theorem headerContext_font (sixteen : x.header.length = 16) :
    (FontResident s (x.header.getD 7 0) →
      (headerContext s.slots (x.completed c).header).font = some (x.header.getD 7 0)) ∧
    (¬ FontResident s (x.header.getD 7 0) → (headerContext s.slots (x.completed c).header).font = none) := by
  have font : headerValue (x.completed c).header 8 = x.header.getD 7 0 := by
    rw [Setting.completed_header sixteen, headerValue_append (by omega) (by omega)]
  unfold headerContext
  rw [font, ← resolveResident_isSome]
  exact ⟨fun h => if_pos h, fun h => if_neg h⟩

theorem Setting.fontMissing_iff (sixteen : x.header.length = 16) :
    (x.completed c).fontMissing s.slots = true ↔ ¬ FontResident s (x.header.getD 7 0) := by
  obtain ⟨found, missing⟩ := headerContext_font (s := s) (c := c) sixteen
  unfold Setting.fontMissing
  by_cases h : FontResident s (x.header.getD 7 0)
  · rw [found h]
    exact ⟨fun e => (by cases e), fun e => absurd h e⟩
  · rw [missing h]
    exact ⟨fun _ => h, fun _ => rfl⟩

theorem Setting.allocated_eq (sixteen : x.header.length = 16) (g : Fin 32) :
    (x.completed c).allocated s.slots g = { x with
      parser := .inGalley, galley := some g, header := [], heldFlags := 0#16
      ctx := some { font := (headerContext s.slots (x.completed c).header).font, pointSize := x.header.getD 8 0
                    setSize := x.header.getD 9 0, track := 0, ligatures := true }
      stack := [], overflow := 0, extraLead := 0, buffer := [], points := [], line := emptyLine, ladder := 0
      held := none } := by
  have field {n : Nat} (low : 1 ≤ n) (high : n ≤ 16) :
      headerValue (x.completed c).header n = x.header.getD (n - 1) 0 := by
    rw [Setting.completed_header sixteen, headerValue_append low (by omega)]
  have pointSize := field (n := 9) (by omega) (by omega)
  have setSize := field (n := 10) (by omega) (by omega)
  rw [show x.header.getD 8 0 = headerValue (x.completed c).header 9 from pointSize.symm,
    show x.header.getD 9 0 = headerValue (x.completed c).header 10 from setSize.symm]
  rfl

end

/-- Settles O39: by how many words of the header have been taken, and whether a record is free. -/
theorem completeHeaderAllocatesARecord : Obligations.CompleteHeaderAllocatesARecord := by
  unfold Obligations.CompleteHeaderAllocatesARecord
  intro s i c drop rest turn
  have header : s.links[i].setting.parser ≠ .idle := by rw [turn.parser]; decide
  have stray := strayAfter_of_not_idle (drop := drop) header
  refine ⟨fun f short rule => ?_, fun sixteen none => ?_, fun g sixteen free lowest => ?_⟩
  · obtain ⟨value, flags⟩ := takeHeaderWord_field short c s.links[i].setting.heldFlags
    rw [← rule] at value flags
    obtain ⟨frame, strayKept, measure, setting⟩ := TurnFrame.of_taken (s := s) (i := i) (drop := drop) (rest := rest)
      (b := ((s.bench i).taken drop rest).withSetting fun x => x.headerWord c) rfl rfl rfl rfl
    refine ⟨_, _, ?_, frame, rfl, strayKept.trans stray, measure, setting.trans ?_, flags⟩
    · rw [turn.exec_header, Bench.takeHeader_of_short short]
    · show s.links[i].setting.headerWord c = _
      unfold Setting.headerWord
      rw [value]
  · have event : exec .setterTurn s = _ := turn.exec_header
    rw [Bench.takeHeader_of_last sixteen, Bench.completeHeader_of_none none] at event
    obtain ⟨frame, strayKept, measure, setting⟩ := TurnFrame.of_taken (s := s) (i := i) (drop := drop) (rest := rest)
      (b := (((s.bench i).taken drop rest).withSetting fun x => x.headerWord c).withSetting
        fun x => { x.spaced with parser := .waitRecord }) rfl rfl rfl rfl
    refine ⟨_, event, frame, rfl, measure, setting.trans ?_⟩
    rw [setting]
    exact congrArg (fun x : Setting => { x with parser := .waitRecord })
      (Setting.completed_eq (c := c) (x := s.links[i].setting) sixteen)
  · have event : exec .setterTurn s = _ := turn.exec_header
    rw [Bench.takeHeader_of_last sixteen, Bench.completeHeader_of_free free lowest] at event
    let b : Bench := (((s.bench i).taken drop rest).withSetting fun x => x.headerWord c).withSetting Setting.spaced
    rw [Bench.allocate_eq] at event
    obtain ⟨frame, strayKept, measure, setting⟩ := TurnFrame.of_taken (s := s) (i := i) (drop := drop) (rest := rest)
      (b := { b.withSetting (fun x => x.allocated b.slots g) with
        table := { b.table with records := b.table.records.set g (some b.newRecord), order := b.table.order ++ [g] } })
      rfl rfl rfl rfl
    have raised := b.newRecord_flags
    have newMark : b.newRecord.mark = true := raised.mark.2 (.inl rfl)
    have same : newGalley i b.link.setting.header b.link.setting.heldFlags = _ :=
      (congrArg (newGalley i · _) (Setting.completed_header (c := c) (x := s.links[i].setting) sixteen)).trans
        (newGalley_header sixteen i (hyphenField c) _)
    have record : b.newRecord = { newGalley i b.link.setting.header b.link.setting.heldFlags with
        flags := b.newRecord.flags } := by
      rw [raised.rest, newMark]
      rfl
    rw [same] at record
    obtain ⟨found, missing⟩ := headerContext_font (s := s) (c := c) (x := s.links[i].setting) sixteen
    refine ⟨_, b.newRecord, event, frame, strayKept.trans stray, measure, set_same _ _ _, rfl,
      fun h other => set_other _ (Ne.symm other) _, rfl, rfl, record, ?_⟩
    have fields : b.newRecord = { newGalley i b.link.setting.header b.link.setting.heldFlags with
        flags := b.newRecord.flags, mark := b.newRecord.mark } := raised.rest
    refine ⟨?_, ?_, ?_, newMark, ?_, ?_, ?_, ?_, ?_, ?_, ?_, ?_, ?_, fun e => ?_,
      (headerContext s.slots (s.links[i].setting.completed c).header).font, found, missing,
      setting.trans (Setting.allocated_eq sixteen g)⟩
    any_goals (rw [fields]; rfl)
    rw [raised.flags e]
    have held := Setting.completed_flags (c := c) (x := s.links[i].setting) sixteen e
    have font : b.link.setting.fontMissing b.slots = true ↔ _ :=
      Setting.fontMissing_iff (s := s) (c := c) (x := s.links[i].setting) sixteen
    rw [font]
    refine (or_congr_left held).trans ?_
    rw [or_assoc, or_assoc]

end

end Sys2Proof.Machine

/-! The Setter's rotation, the stray words of IDLE, and the closing of lines (R46, R48, R50, R87, R88, R114, R115, R117). -/

namespace Sys2Proof.Machine

/-! ## The rotation (R117) -/

section
variable {s : State} {i : Fin 4} {b : Bench}

theorem head?_map_eq_none {α β : Type} {l : List α} {f : α → β} : (l.head?.map f) = none ↔ l = [] := by
  rw [Option.map_eq_none_iff, List.head?_eq_none_iff]

theorem GalleyTable.limitHolds_iff (t : GalleyTable) (g : Fin 32) :
    t.limitHolds g = true ↔ ∃ r, t.records[g] = some r ∧ AtLineLimit r := by
  unfold GalleyTable.limitHolds
  cases hr : t.records[g] with
  | none => simp
  | some r => simp [r.atLimit_iff]

/-- A link takes no turn exactly if it is passed over. -/
theorem State.turn_eq_none (s : State) (i : Fin 4) : (s.bench i).turn = none ↔ PassedOver s i := by
  unfold PassedOver Bench.turn
  rw [show (s.bench i).parser = s.links[i].setting.parser from rfl]
  cases s.links[i].setting.parser with
  | waitRecord => exact Option.map_eq_none_iff.trans (GalleyTable.lowestFree_none _)
  | waitLine =>
    show (if s.table.freeLines = 0 then none else some _) = none ↔ s.table.freeLines = 0
    split
    · next h => exact ⟨fun _ => h, fun _ => rfl⟩
    · next h => exact ⟨fun e => (by cases e), fun e => absurd e h⟩
  | waitLimit =>
    dsimp only
    split
    · next none => exact ⟨fun _ => .inl none, fun _ => rfl⟩
    · next g current =>
      have own : s.links[i].setting.galley = some g := current
      have limit := s.table.limitHolds_iff g
      show (if s.table.limitHolds g then none else some _) = none ↔ _
      split
      · next holds =>
        obtain ⟨r, hr, full⟩ := limit.1 holds
        exact ⟨fun _ => .inr ⟨g, r, own, hr, full⟩, fun _ => rfl⟩
      · next free =>
        refine ⟨fun e => (by cases e), fun passed => ?_⟩
        rcases passed with none | ⟨k, r, other, hr, full⟩
        · cases own.symm.trans none
        · cases own.symm.trans other
          exact absurd (limit.2 ⟨r, hr, full⟩) free
  | waitMeasure =>
    show (match s.links[i].measure, s.links[i].rx.ring with
      | .empty, e :: _ => some _
      | _, _ => none) = none ↔ _
    split
    · next hm hr => simp [-Fin.getElem_fin, hm, hr]
    · next other =>
      refine ⟨fun _ => ?_, fun _ => rfl⟩
      by_cases empty : s.links[i].measure = .empty
      · refine .inr (List.eq_nil_iff_forall_not_mem.2 fun e he => ?_)
        obtain ⟨x, l, ring⟩ := List.exists_cons_of_ne_nil (List.ne_nil_of_mem he)
        exact other x l empty ring
      · exact .inl empty
  | _ => exact head?_map_eq_none

theorem State.firstTurn_of_passed {j : Fin 4} (passed : PassedOver s j) (l : List (Fin 4)) :
    s.firstTurn (j :: l) = s.firstTurn l := by
  rw [State.firstTurn, (s.turn_eq_none j).2 passed]

theorem State.firstTurn_of_turn (turn : (s.bench i).turn = some b) (l : List (Fin 4)) :
    s.firstTurn (i :: l) = some (i, b) := by
  rw [State.firstTurn, turn]

/-- The first link that is not passed over has the turn. -/
theorem State.firstTurn_eq {k : Fin 4} (before : ∀ j : Fin 4, j < k → PassedOver s (s.rotation + j))
    (turn : (s.bench (s.rotation + k)).turn = some b) :
    s.firstTurn (linksFrom s.rotation) = some (s.rotation + k, b) := by
  have zero (l : List (Fin 4)) (h : (0 : Fin 4) < k) : s.firstTurn (s.rotation :: l) = s.firstTurn l :=
    State.firstTurn_of_passed (by simpa using before 0 h) l
  unfold linksFrom
  match k with
  | 0 => exact State.firstTurn_of_turn (i := s.rotation) (by simpa using turn) _ |>.trans (by simp)
  | 1 => rw [zero _ (by decide), State.firstTurn_of_turn turn]
  | 2 => rw [zero _ (by decide), State.firstTurn_of_passed (before 1 (by decide)), State.firstTurn_of_turn turn]
  | 3 =>
    rw [zero _ (by decide), State.firstTurn_of_passed (before 1 (by decide)),
      State.firstTurn_of_passed (before 2 (by decide)), State.firstTurn_of_turn turn]

theorem State.turn_of_all_passed (passed : ∀ i, PassedOver s i) : s.turn = s := by
  unfold State.turn linksFrom
  rw [State.firstTurn_of_passed (passed _), State.firstTurn_of_passed (passed _), State.firstTurn_of_passed (passed _),
    State.firstTurn_of_passed (passed _)]
  rfl

theorem State.putBench_named (own : b.id = i) :
    s.putBench b = { s with slots := b.slots, table := b.table, links := s.links.set i b.link } := by
  subst own
  rfl

theorem State.turn_of_first {k : Fin 4} (before : ∀ j : Fin 4, j < k → PassedOver s (s.rotation + j))
    (named : i = s.rotation + k) (turn : (s.bench i).turn = some b) :
    s.turn = State.settle { s with
      slots := b.slots, table := b.table, links := s.links.set i b.link, rotation := i + 1 } := by
  have own : b.id = i := Bench.turn_id turn
  subst named
  unfold State.turn
  rw [State.firstTurn_eq before turn]
  dsimp only
  rw [State.putBench_named own]

end

/-! ## A stray word (R50, R141) -/

section
variable {s : State} {i : Fin 4} {b : Bench} {w : Word} {drop : Nat} {rest : List RingEntry}

theorem sortWord_text (low : 0x20 ≤ w.toNat) (high : w.toNat < 0xFF00) : sortWord (some w) = .text w := by
  unfold sortWord
  dsimp only
  rw [if_neg (by omega), if_neg (by omega)]

theorem Bench.dealWord_of_idle {c : Option Word} (idle : b.parser = .idle) (clear : b.link.setting.pending = none) :
    b.dealWord c = b.sortInIdle c := by
  unfold Bench.dealWord
  rw [idle]
  unfold Bench.dealOutsideHeader
  rw [clear, idle]

theorem Bench.dealWord_of_inGalley {c : Option Word} (inGalley : b.parser = .inGalley)
    (clear : b.link.setting.pending = none) : b.dealWord c = b.sortInGalley c := by
  unfold Bench.dealWord
  rw [inGalley]
  unfold Bench.dealOutsideHeader
  rw [clear, inGalley]

theorem Bench.sortInIdle_text (low : 0x20 ≤ w.toNat) (high : w.toNat < 0xFF00) : b.sortInIdle (some w) = b.strays 1 := by
  unfold Bench.sortInIdle
  rw [sortWord_text low high]

/-- The turn of a text word in IDLE. -/
theorem WordTurn.exec_stray (turn : WordTurn s i .idle (some w) drop rest) (low : 0x20 ≤ w.toNat) (high : w.toNat < 0xFF00) :
    exec .setterTurn s =
      .next (State.settle { s.putBench (((s.bench i).taken drop rest).strays 1) with rotation := i + 1 }) := by
  have goesOn : (s.bench i).measureMustWait { code := some w, marker := false, drop := drop } = false :=
    Bench.measureMustWait_of_code (by rw [sortWord_text low high]; exact fun e => by cases e)
  rw [turn.exec_eq (.inl rfl) goesOn, Bench.dealWord_of_idle (b := (s.bench i).taken drop rest) turn.parser turn.pending, Bench.sortInIdle_text low high]

end

/-! ## A line closed (R46, R48, R87, R88) -/

section
variable {s : State} {i : Fin 4} {b : Bench} {w : Word} {g : Fin 32} {r : Galley} {brk : Break} {quad : Quad}
  {flags : LineFlags} {drop : Nat} {rest : List RingEntry}

theorem LineCode.sortWord_ne_measure (code : LineCode r w brk quad flags) : sortWord (some w) ≠ .code .measure := by
  cases code <;> exact fun e => by cases e

theorem LineCode.ne_galleyStart (code : LineCode r w brk quad flags) : brk ≠ .galleyStart := by
  cases code <;> exact fun e => by cases e

theorem LineCode.closeWord (code : LineCode r w brk quad flags) (b : Bench) : b.sortInGalley (some w) = b.closeWord brk := by
  cases code <;> rfl

/-- The setting context of a link whose word buffer holds no word, once the buffer has been closed. -/
def Setting.wordClosed (x : Setting) : Setting := { x with buffer := [], points := [] }

theorem Bench.fillCurrent_of_some {h : Rest} (current : b.link.setting.galley = some g) (hr : b.table.records[g] = some r) :
    b.fillCurrent h = Bench.fill g r.header (fillFuel h) b h := by
  unfold Bench.fillCurrent
  rw [current]
  dsimp only
  rw [hr]

theorem Bench.closeWord_of_empty (empty : b.link.setting.buffer = []) (current : b.link.setting.galley = some g)
    (hr : b.table.records[g] = some r) :
    b.closeWord brk = Bench.fill g r.header 8 (b.withSetting Setting.wordClosed) (.breakDue brk) := by
  unfold Bench.closeWord
  dsimp only
  rw [empty]
  exact Bench.fillCurrent_of_some (b := b.withSetting Setting.wordClosed) current hr

/-- A turn that takes a code which closes a line, no word being gathered. -/
theorem WordTurn.exec_lineCode (turn : WordTurn s i .inGalley (some w) drop rest) (code : LineCode r w brk quad flags)
    (current : s.links[i].setting.galley = some g) (hr : s.table.records[g] = some r)
    (empty : s.links[i].setting.buffer = []) :
    exec .setterTurn s = .next (State.settle { s.putBench (Bench.fill g r.header 8
      (((s.bench i).taken drop rest).withSetting Setting.wordClosed) (.breakDue brk)) with rotation := i + 1 }) := by
  rw [turn.exec_eq (.inr (.inr (.inl rfl))) (Bench.measureMustWait_of_code code.sortWord_ne_measure),
    Bench.dealWord_of_inGalley (b := (s.bench i).taken drop rest) turn.parser turn.pending, code.closeWord,
    Bench.closeWord_of_empty (b := (s.bench i).taken drop rest) (g := g) (r := r) empty current hr]

/-- What a turn leaves alone whose work on the link changed table and setting context alone. -/
theorem TurnFrame.of_setting (id : b.id = i) (slots : b.slots = s.slots)
    (link : b.link = { ((s.bench i).taken drop rest).link with setting := b.link.setting }) :
    let u : State := { s.putBench b with rotation := i + 1 }
    TurnFrame s u i rest ∧ u.links[i].rx.stray = strayAfter s i drop 0 ∧ u.links[i].measure = s.links[i].measure ∧
      u.links[i].setting = b.link.setting := by
  obtain ⟨frame, stray, measure, setting⟩ := TurnFrame.of_taken (s := s) (i := i) (drop := drop) (rest := rest) (b := b)
    id slots (by rw [link]) (by rw [link]; rfl)
  refine ⟨frame, stray, measure.trans ?_, setting⟩
  rw [link]
  rfl

theorem setting_points {x : Setting} (empty : x.buffer = []) : x.wordClosed = { x with points := [] } := by
  unfold Setting.wordClosed
  rw [← empty]

/-- The close of a line by a code (R46, R87, R88): a record is asked for it. -/
theorem turn_closesLine (turn : WordTurn s i .inGalley (some w) drop rest) (current : s.links[i].setting.galley = some g)
    (hr : s.table.records[g] = some r) (empty : s.links[i].setting.buffer = []) (code : LineCode r w brk quad flags)
    (some : brk = .galleyEnd → s.links[i].setting.line.elements ≠ []) :
    ∃ u : State, exec .setterTurn s = .next u.settle ∧ TurnFrame s u i rest ∧
      u.links[i].rx.stray = s.links[i].rx.stray ∧ u.links[i].measure = s.links[i].measure ∧
      RecordAsked s.table u.table { s.links[i].setting with points := [] } u.links[i].setting g r
        { advance := (r.header.leading + s.links[i].setting.extraLead) * 8, quad := quad
          flags := { flags with loose := (setLine s.slots r.header s.links[i].setting.line quad flags).2 }
          glyphs := (setLine s.slots r.header s.links[i].setting.line quad flags).1 } brk := by
  have busy : s.links[i].setting.parser ≠ .idle := by rw [turn.parser]; decide
  obtain ⟨asked, id, slots, -, link⟩ := Bench.takeRecord_spec
    (b := ((s.bench i).taken drop rest).withSetting Setting.wordClosed) (g := g) (r := r) hr
    { advance := (r.header.leading + s.links[i].setting.extraLead) * 8, quad := quad
      flags := { flags with loose := (setLine s.slots r.header s.links[i].setting.line quad flags).2 }
      glyphs := (setLine s.slots r.header s.links[i].setting.line quad flags).1 } brk code.ne_galleyStart
    (fun c => Bench.fill g r.header 7 c (.closed brk)) fun _ _ _ => rfl
  obtain ⟨frame, stray, measure, setting⟩ := TurnFrame.of_setting (s := s) (i := i) (drop := drop) (rest := rest)
    id slots (by rw [link]; rfl)
  refine ⟨_, ?_, frame, stray.trans (strayAfter_of_not_idle busy), measure, ?_⟩
  · rw [turn.exec_lineCode code current hr empty, Bench.fill_lineCode (n := 6) code some]
    rfl
  · rw [setting, ← setting_points empty]
    exact asked

/-- GALLEY END with nothing to close ends the galley at once (R48). -/
theorem turn_endsGalley (turn : WordTurn s i .inGalley (some 0xFF02#16) drop rest)
    (current : s.links[i].setting.galley = some g) (hr : s.table.records[g] = some r)
    (empty : s.links[i].setting.buffer = []) (none : s.links[i].setting.line.elements = []) :
    ∃ u : State, exec .setterTurn s = .next u.settle ∧ TurnFrame s u i rest ∧
      u.links[i].rx.stray = s.links[i].rx.stray ∧ u.links[i].measure = s.links[i].measure ∧
      GalleyEnded s.table u.table g r ∧ u.links[i].setting = s.links[i].setting.ended := by
  have busy : s.links[i].setting.parser ≠ .idle := by rw [turn.parser]; decide
  let c := ((s.bench i).taken drop rest).withSetting Setting.wordClosed
  have ended : Bench.fill g r.header 8 c (.breakDue .galleyEnd) = c.endGalley g false :=
    if_pos (by rw [show c.link.setting.line.elements = [] from none]; rfl)
  obtain ⟨frame, stray, measure, setting⟩ := TurnFrame.of_setting (s := s) (i := i) (drop := drop) (rest := rest)
    (b := c.endGalley g false) rfl rfl rfl
  refine ⟨_, ?_, frame, stray.trans (strayAfter_of_not_idle busy), measure, GalleyTable.endGalley_spec hr, setting⟩
  rw [turn.exec_lineCode (r := r) .galleyEnd current hr empty, ended]

/-! ## A line whose wait has ended (R114, R115) -/

theorem Bench.releaseLine_of_some {h : HeldLine} (held : b.link.setting.held = some h)
    (current : b.link.setting.galley = some g) :
    b.releaseLine =
      if (b.takeRecord g h).2 then (b.takeRecord g h).1.fillCurrent h.rest else (b.takeRecord g h).1 := by
  unfold Bench.releaseLine
  rw [held, current]

theorem RecordAsked.markerDue {t t' : GalleyTable} {x y : Setting} {line : ClosedLine}
    (asked : RecordAsked t t' x y g r line brk) : y.markerDue = x.markerDue := by
  by_cases full : AtLineLimit r
  · rw [(asked.limit full).2]
  · by_cases dry : t.freeLines = 0
    · rw [(asked.pool full dry).2]
    · by_cases ends : brk = .galleyEnd
      · obtain ⟨v, q, -, -, -, y_eq⟩ := asked.ends full (Nat.pos_of_ne_zero dry) ends
        rw [y_eq]
        rfl
      · rw [(asked.closes full (Nat.pos_of_ne_zero dry) ends).2]

theorem Bench.turn_of_released (current : b.link.setting.galley = some g) (hr : b.table.records[g] = some r)
    (ended : b.parser = .waitLine ∧ 0 < b.table.freeLines ∨ b.parser = .waitLimit ∧ ¬ AtLineLimit r) :
    b.turn = some b.releaseLine.actDueMarker := by
  unfold Bench.turn
  rcases ended with ⟨wait, line⟩ | ⟨wait, room⟩
  · rw [wait]
    exact if_neg (Nat.pos_iff_ne_zero.1 line)
  · have open_ : ¬ b.table.limitHolds g = true := fun h => by
      obtain ⟨q, hq, full⟩ := (b.table.limitHolds_iff g).1 h
      cases hr.symm.trans hq
      exact room full
    rw [wait]
    dsimp only
    rw [current]
    exact if_neg open_

/-- A held line is asked for again when its wait has ended. -/
theorem turn_releasesLine {line : ClosedLine} (turn : s.rotation = i) (current : s.links[i].setting.galley = some g)
    (hr : s.table.records[g] = some r)
    (ended : s.links[i].setting.parser = .waitLine ∧ 0 < s.table.freeLines ∨
      s.links[i].setting.parser = .waitLimit ∧ ¬ AtLineLimit r)
    (held : s.links[i].setting.held = some { line := line, rest := .closed brk }) (notStart : brk ≠ .galleyStart)
    (undue : s.links[i].setting.markerDue = false) :
    ∃ u : State, exec .setterTurn s = .next u.settle ∧ TurnFrame s u i s.links[i].rx.ring ∧
      u.links[i].rx = s.links[i].rx ∧ u.links[i].measure = s.links[i].measure ∧
      RecordAsked s.table u.table s.links[i].setting u.links[i].setting g r line brk := by
  obtain ⟨asked, id, slots, -, link⟩ := Bench.takeRecord_spec (b := s.bench i) (g := g) (r := r) hr line brk notStart
    (fun c => c.fillCurrent (.closed brk)) fun c there galley => by
      obtain ⟨q, hq⟩ := Option.ne_none_iff_exists'.1 there
      rw [Bench.fillCurrent_of_some (galley.trans current) hq]
      rfl
  rw [← Bench.releaseLine_of_some (b := s.bench i) held current] at asked id slots link
  have settled : (s.bench i).releaseLine.actDueMarker = (s.bench i).releaseLine :=
    if_neg (by rw [asked.markerDue, show (s.bench i).link.setting.markerDue = false from undue]; decide)
  have own := State.putBench_link (s := s) (i := i) (b := (s.bench i).releaseLine) id
  refine ⟨_, ?_, TurnFrame.of_bench id slots (by rw [link]; rfl) (by rw [link]; rfl), ?_, ?_, ?_⟩
  · rw [exec_setterTurn turn (Bench.turn_of_released (b := s.bench i) current hr ended), settled]
  · rw [own, link]; rfl
  · rw [own, link]; rfl
  · rw [own]; exact asked

end

end Sys2Proof.Machine

/-! Measure requests (R54, R55, R90, R91), and the turns of the Setter together. -/

namespace Sys2Proof.Machine

section
variable {s : State} {i : Fin 4} {b : Bench} {p : ParserState} {ret : ReturnState} {drop : Nat} {rest : List RingEntry}
  {q : MeasureRequest} {c : Option Word}

/-! ## MEASURE (R54) -/

/-- The parser states in which MEASURE is taken, with the state that the parser goes back to. -/
def MeasureFrom (p : ParserState) (ret : ReturnState) : Prop :=
  p = .idle ∧ ret = .idle ∨ p = .inGalley ∧ ret = .inGalley ∨ p = .skip ∧ ret = .skip

theorem MeasureFrom.takes (kind : MeasureFrom p ret) :
    p = .idle ∨ p = .header ∨ p = .inGalley ∨ p = .skip ∨ p = .inMeasure := by
  rcases kind with ⟨h, -⟩ | ⟨h, -⟩ | ⟨h, -⟩ <;> simp [h]

theorem MeasureFrom.returnOf_eq (kind : MeasureFrom p ret) : returnOf p = ret := by
  rcases kind with ⟨rfl, rfl⟩ | ⟨rfl, rfl⟩ | ⟨rfl, rfl⟩ <;> rfl

theorem Bench.dealWord_measure (kind : MeasureFrom p ret) (parser : b.parser = p) (clear : b.link.setting.pending = none) :
    b.dealWord (some 0xFF40#16) = b.openMeasure := by
  rcases kind with ⟨rfl, -⟩ | ⟨rfl, -⟩ | ⟨rfl, -⟩
  · rw [Bench.dealWord_of_idle parser clear]
    rfl
  · rw [Bench.dealWord_of_inGalley parser clear]
    rfl
  · unfold Bench.dealWord
    rw [parser]
    unfold Bench.dealOutsideHeader
    rw [clear, parser]
    rfl

theorem Bench.measureMustWait_measure (kind : MeasureFrom p ret) (parser : b.parser = p)
    (clear : b.link.setting.pending = none) :
    b.measureMustWait { code := some 0xFF40#16, marker := false, drop := drop } = decide (b.link.measure ≠ .empty) := by
  unfold Bench.measureMustWait
  rw [parser, clear]
  rcases kind with ⟨rfl, -⟩ | ⟨rfl, -⟩ | ⟨rfl, -⟩ <;> rfl

/-- A MEASURE taken opens a request (R54). -/
theorem turn_opensMeasure (kind : MeasureFrom p ret) (turn : WordTurn s i p (some 0xFF40#16) drop rest)
    (empty : s.links[i].measure = .empty) :
    ∃ (u : State) (q : MeasureRequest), exec .setterTurn s = .next u.settle ∧ TurnFrame s u i rest ∧
      u.table = s.table ∧ u.links[i].rx.stray = strayAfter s i drop 0 ∧
      u.links[i].measure = .gathering q ∧ q.taken = 0 ∧ q.chars = [] ∧ q.flags = 0#16 ∧
      u.links[i].setting = { s.links[i].setting with parser := .inMeasure, ret := ret } := by
  have goesOn : (s.bench i).measureMustWait { code := some 0xFF40#16, marker := false, drop := drop } = false := by
    rw [Bench.measureMustWait_measure (b := s.bench i) kind turn.parser turn.pending]
    exact decide_eq_false fun h => h empty
  have event := turn.exec_eq kind.takes goesOn
  rw [Bench.dealWord_measure (b := (s.bench i).taken drop rest) kind turn.parser turn.pending] at event
  obtain ⟨frame, stray, measure, setting⟩ := TurnFrame.of_taken (s := s) (i := i) (drop := drop) (rest := rest)
    (b := ((s.bench i).taken drop rest).openMeasure) rfl rfl rfl rfl
  refine ⟨_, newRequest, event, frame, rfl, stray, measure, rfl, rfl, rfl, setting.trans ?_⟩
  show { s.links[i].setting with ret := returnOf s.links[i].setting.parser, parser := .inMeasure, pending := none } = _
  rw [turn.parser, kind.returnOf_eq, ← turn.pending]

/-- A MEASURE that finds the slot in use stays at the head of the ring (R54). -/
theorem turn_waitsForMeasure (kind : MeasureFrom p ret) (turn : WordTurn s i p (some 0xFF40#16) drop rest)
    (used : s.links[i].measure ≠ .empty) :
    exec .setterTurn s = .next (State.settle { s with
      links := s.links.set i { s.links[i] with
        setting := { s.links[i].setting with parser := .waitMeasure, resume := ret } }
      rotation := i + 1 }) := by
  have waits : (s.bench i).measureMustWait { code := some 0xFF40#16, marker := false, drop := drop } = true := by
    rw [Bench.measureMustWait_measure (b := s.bench i) kind turn.parser turn.pending]
    exact decide_eq_true used
  have taken : (s.bench i).turn =
      some ((s.bench i).takeEntry { code := some 0xFF40#16, marker := false, drop := drop }) := by
    unfold Bench.turn
    rw [show (s.bench i).parser = p from turn.parser]
    rw [show (s.bench i).link.rx.ring = _ from turn.ring]
    rcases kind with ⟨rfl, -⟩ | ⟨rfl, -⟩ | ⟨rfl, -⟩ <;> rfl
  have entry : (s.bench i).takeEntry { code := some 0xFF40#16, marker := false, drop := drop } =
      (s.bench i).withSetting fun x => { x with resume := ret, parser := .waitMeasure } := by
    unfold Bench.takeEntry
    rw [if_pos waits, ← kind.returnOf_eq, ← turn.parser]
    rfl
  rw [exec_setterTurn turn.turn taken, entry]
  rfl

/-! ## The characters of a request (R55) -/

theorem Bench.request_of (gathering : b.link.measure = .gathering q) : b.request = q := by
  unfold Bench.request
  rw [gathering]

theorem Bench.dealWord_inMeasure (gathering : b.link.measure = .gathering q) (opened : 4 ≤ q.taken)
    (parser : b.parser = .inMeasure) (clear : b.link.setting.pending = none) : b.dealWord c = b.sortInMeasure c := by
  unfold Bench.dealWord
  rw [parser]
  dsimp only
  rw [Bench.request_of gathering, if_neg (by omega)]
  unfold Bench.dealOutsideHeader
  rw [clear, parser]

theorem WordTurn.exec_inMeasure (turn : WordTurn s i .inMeasure c drop rest)
    (gathering : s.links[i].measure = .gathering q) (opened : 4 ≤ q.taken) :
    exec .setterTurn s =
      .next (State.settle { s.putBench (((s.bench i).taken drop rest).sortInMeasure c) with rotation := i + 1 }) := by
  have goesOn : (s.bench i).measureMustWait { code := c, marker := false, drop := drop } = false := by
    unfold Bench.measureMustWait
    rw [show (s.bench i).parser = .inMeasure from turn.parser]
    rfl
  rw [turn.exec_eq (.inr (.inr (.inr (.inr rfl)))) goesOn,
    Bench.dealWord_inMeasure (b := (s.bench i).taken drop rest) gathering opened turn.parser turn.pending]

theorem Bench.sortInMeasure_char (char : ∀ w, c = some w → 0x20 ≤ w.toNat ∧ w.toNat < 0xFF00)
    (gathering : b.link.measure = .gathering q) :
    b.sortInMeasure c = { b with link := { b.link with measure := .gathering (q.takeChar c) } } := by
  have taken : b.sortInMeasure c = b.withRequest fun r => r.takeChar c := by
    cases c with
    | none => rfl
    | some w =>
      obtain ⟨low, high⟩ := char w rfl
      unfold Bench.sortInMeasure
      rw [sortWord_text low high]
  rw [taken]
  unfold Bench.withRequest
  rw [Bench.request_of gathering]

theorem MeasureRequest.takeChar_spec (q : MeasureRequest) (c : Option Word) :
    q.takeChar c = { q with chars := (q.takeChar c).chars, flags := (q.takeChar c).flags } ∧
      (q.takeChar c).chars = (if q.chars.length < 64 then q.chars ++ [c] else q.chars) ∧
      ∀ f, hasFlag (q.takeChar c).flags f = true ↔ hasFlag q.flags f = true ∨
        (f = .charError ∧ q.chars.length < 64 ∧ c = none) ∨ (f = .truncated ∧ 64 ≤ q.chars.length) := by
  unfold MeasureRequest.takeChar
  by_cases room : q.chars.length < 64
  · rw [if_pos (show q.chars.length < Config.wordChars from room), if_pos room]
    refine ⟨rfl, rfl, fun f => ?_⟩
    rw [hasFlag_addFlagIf]
    simp [room, Nat.not_le.2 room]
  · rw [if_neg (show ¬ q.chars.length < Config.wordChars from room), if_neg room]
    refine ⟨rfl, rfl, fun f => ?_⟩
    rw [hasFlag_addFlag]
    simp [room, Nat.not_lt.1 room]

/-- A character of a request is gathered (R55, log 32). -/
theorem turn_gathersChar (turn : WordTurn s i .inMeasure c drop rest) (gathering : s.links[i].measure = .gathering q)
    (opened : 4 ≤ q.taken) (char : ∀ w, c = some w → 0x20 ≤ w.toNat ∧ w.toNat < 0xFF00) :
    ∃ (u : State) (q' : MeasureRequest), exec .setterTurn s = .next u.settle ∧ TurnFrame s u i rest ∧
      u.table = s.table ∧ u.links[i].rx.stray = s.links[i].rx.stray ∧ u.links[i].setting = s.links[i].setting ∧
      u.links[i].measure = .gathering q' ∧ q' = { q with chars := q'.chars, flags := q'.flags } ∧
      q'.chars = (if q.chars.length < 64 then q.chars ++ [c] else q.chars) ∧
      ∀ f, hasFlag q'.flags f = true ↔ hasFlag q.flags f = true ∨
        (f = .charError ∧ q.chars.length < 64 ∧ c = none) ∨ (f = .truncated ∧ 64 ≤ q.chars.length) := by
  have busy : s.links[i].setting.parser ≠ .idle := by rw [turn.parser]; decide
  obtain ⟨same, chars, flags⟩ := q.takeChar_spec c
  have event := turn.exec_inMeasure gathering opened
  rw [Bench.sortInMeasure_char (b := (s.bench i).taken drop rest) char gathering] at event
  obtain ⟨frame, stray, measure, setting⟩ := TurnFrame.of_taken (s := s) (i := i) (drop := drop) (rest := rest)
    (b := { (s.bench i).taken drop rest with
      link := { ((s.bench i).taken drop rest).link with measure := .gathering (q.takeChar c) } }) rfl rfl rfl rfl
  exact ⟨_, _, event, frame, rfl, stray.trans (strayAfter_of_not_idle busy), setting, measure, same, chars, flags⟩

/-! ## MEASURE END (R55, R90, R91) -/

theorem Bench.closeMeasure_of (gathering : b.link.measure = .gathering q) (clear : b.link.setting.pending = none) :
    b.closeMeasure = { b with link := { b.link with
      setting := { b.link.setting with parser := b.link.setting.ret.parser }
      measure := .waiting (q.result b.classes b.slots) } } := by
  unfold Bench.closeMeasure
  rw [Bench.request_of gathering, ← clear]
  rfl

theorem shapeWord_nil (slots : Vector Slot 8) (resolve : Nat → Option (Fin 8)) :
    (shapeWord slots resolve [] []).1.elements = [] := by
  simp [shapeWord, glyphItems, formLigatures, attachMarks, placePoints, kernElements]

theorem MeasureRequest.result_empty (classes : List ClassEntry) (slots : Vector Slot 8) (none : q.chars = []) :
    (q.result classes slots).width = 0 ∧ (q.result classes slots).glyphs = 0 ∧ (q.result classes slots).missing = 0 := by
  have entries : q.entries classes = [] := by
    unfold MeasureRequest.entries
    rw [none]
    rfl
  have nil := shapeWord_nil slots (resolveResident slots)
  unfold MeasureRequest.result
  rw [entries]
  simp [splitWords, ShapedWord.width, ShapedWord.elementCount, ShapedWord.missingCount, nil]

/-- The flags of a result (R90, R91). -/
theorem MeasureRequest.result_flags (q : MeasureRequest) (s : State) (f : GalleyFlag) :
    hasFlag (q.result s.classes s.slots).flags f = true ↔ hasFlag q.flags f = true ∨
      (f = .fontMissing ∧ ¬ FontResident s q.font) ∨
      (f = .missingGlyph ∧ 0 < (q.result s.classes s.slots).missing) ∨
      (f = .markDropped ∧ ∃ w ∈ (splitWords [] (q.entries s.classes)).map fun cs =>
        (shapeWord s.slots (resolveResident s.slots) cs []).1, w.droppedMark = true) := by
  have font : (resolveResident s.slots q.font).isNone = true ↔ ¬ FontResident s q.font := by
    rw [← resolveResident_isSome, Bool.not_eq_true, Option.isSome_eq_false_iff]
  unfold MeasureRequest.result
  dsimp only
  rw [hasFlag_addFlagIf, hasFlag_addFlagIf, hasFlag_addFlagIf, font, decide_eq_true_iff, List.any_eq_true, or_assoc, or_assoc]

/-- MEASURE END puts the result into the slot (R55, R90, R91). -/
theorem turn_closesMeasure (turn : WordTurn s i .inMeasure (some 0xFF41#16) drop rest)
    (gathering : s.links[i].measure = .gathering q) (opened : 4 ≤ q.taken) :
    let words := (splitWords [] (q.entries s.classes)).map fun cs =>
      (shapeWord s.slots (resolveResident s.slots) cs []).1
    ∃ (u : State) (m : MeasureResult), exec .setterTurn s = .next u.settle ∧ TurnFrame s u i rest ∧
      u.table = s.table ∧ u.links[i].rx.stray = s.links[i].rx.stray ∧ u.links[i].measure = .waiting m ∧
      u.links[i].setting = { s.links[i].setting with parser := s.links[i].setting.ret.parser } ∧
      m.width = (words.map ShapedWord.width).sum + (words.length - 1) * ((q.space * q.setSize * 16 + 4) / 9) ∧
      m.glyphs = (words.map ShapedWord.elementCount).sum ∧
      m.missing = (words.map ShapedWord.missingCount).sum ∧
      (∀ f, hasFlag m.flags f = true ↔ hasFlag q.flags f = true ∨ (f = .fontMissing ∧ ¬ FontResident s q.font) ∨
        (f = .missingGlyph ∧ 0 < m.missing) ∨ (f = .markDropped ∧ ∃ w ∈ words, w.droppedMark = true)) ∧
      (q.chars = [] → m.width = 0 ∧ m.glyphs = 0 ∧ m.missing = 0) := by
  have busy : s.links[i].setting.parser ≠ .idle := by rw [turn.parser]; decide
  have event := turn.exec_inMeasure gathering opened
  have closes : ((s.bench i).taken drop rest).sortInMeasure (some 0xFF41#16) =
      ((s.bench i).taken drop rest).closeMeasure := rfl
  rw [closes, Bench.closeMeasure_of (b := (s.bench i).taken drop rest) gathering turn.pending] at event
  obtain ⟨frame, stray, measure, setting⟩ := TurnFrame.of_taken (s := s) (i := i) (drop := drop) (rest := rest)
    (b := { (s.bench i).taken drop rest with link := { ((s.bench i).taken drop rest).link with
      setting := { s.links[i].setting with parser := s.links[i].setting.ret.parser }
      measure := .waiting (q.result s.classes s.slots) } }) rfl rfl rfl rfl
  exact ⟨_, _, event, frame, rfl, stray.trans (strayAfter_of_not_idle busy), measure, setting, rfl, rfl, rfl,
    q.result_flags s, q.result_empty s.classes s.slots⟩

/-! ## The turns of the Setter -/

/-- The turn of a text word in IDLE counts it stray (R50, R141). -/
theorem turn_countsStray {w : Word} (turn : WordTurn s i .idle (some w) 0 rest) (low : 0x20 ≤ w.toNat)
    (high : w.toNat < 0xFF00) :
    ∃ t, exec .setterTurn s = .next t ∧ t.rotation = i + 1 ∧ t.links[i].rx.ring = rest ∧
      t.links[i].rx.stray = min (s.links[i].rx.stray + 1) 65535 ∧ t.links[i].setting = s.links[i].setting ∧
      t.slots = s.slots ∧ t.classes = s.classes := by
  obtain ⟨rx, setting⟩ := State.settle_link
    { s.putBench (((s.bench i).taken 0 rest).strays 1) with rotation := i + 1 } i
  have own := State.putBench_link (s := s) (i := i) (b := ((s.bench i).taken 0 rest).strays 1) rfl
  have stray : ((s.bench i).taken 0 rest).link.rx.stray = min s.links[i].rx.stray 65535 :=
    (Bench.taken_stray s i 0 rest).trans (if_pos turn.parser)
  refine ⟨_, turn.exec_stray low high, State.settle_rotation _, ?_, ?_, ?_, State.settle_slots _, State.settle_classes _⟩
  · rw [rx, own]
    rfl
  · rw [rx, own]
    show min (((s.bench i).taken 0 rest).link.rx.stray + 1) 65535 = _
    rw [stray]
    omega
  · rw [setting, own]
    rfl

/-- Settles O38: the rotation finds the link, and each kind of turn has its lemma. -/
theorem setterServesLinksInRotation : Obligations.SetterServesLinksInRotation := by
  unfold Obligations.SetterServesLinksInRotation
  intro s
  refine ⟨s.turn_eq_none, fun passed => ?_, fun k i b before named turn => ?_, fun w rest idle clear low high ring => ?_,
    fun i drop rest turn => ⟨fun w g r word current hr empty => ⟨fun brk quad flags code some => ?_, ?_⟩,
      fun line brk g r current hr ended held notStart undue => ?_, fun p ret kind word => ⟨?_, ?_⟩,
      fun q gathering opened => ⟨fun c char word => ?_, fun word => ?_⟩⟩⟩
  · rw [exec_turn, State.turn_of_all_passed passed]
  · rw [exec_turn, State.turn_of_first before named turn]
  · exact turn_countsStray ⟨rfl, idle, clear, ring⟩ low high
  · exact turn_closesLine word current hr empty code some
  · rintro rfl none
    exact turn_endsGalley word current hr empty none
  · exact turn_releasesLine turn current hr ended held notStart undue
  · exact turn_opensMeasure kind word
  · exact turn_waitsForMeasure kind word
  · exact turn_gathersChar word gathering opened char
  · exact turn_closesMeasure word gathering opened

end

end Sys2Proof.Machine

/-! Setting a line: exposure order (R104), and the exact fill of a justified line (R94 to R101). -/

namespace Sys2Proof.Machine

/-! ## Exposure order (R104) -/

section
variable {α : Type} {test : α → Bool} {a : α} {xs ys : List α}

/-- An element that fails the test parts the list into two whose runs are reversed by themselves. -/
theorem reverseRuns_part (acc xs ys : List α) (out : test a = false) :
    reverseRuns test acc (xs ++ a :: ys) = reverseRuns test acc xs ++ a :: reverseRuns test [] ys := by
  induction xs generalizing acc with
  | nil => simp [reverseRuns, out]
  | cons x xs ih =>
    cases h : test x with
    | true => simp [reverseRuns, h, ih]
    | false => simp [reverseRuns, h, ih]

theorem reverseRuns_of_all (acc : List α) (all : ∀ x ∈ xs, test x = true) : reverseRuns test acc xs = xs.reverse ++ acc := by
  induction xs generalizing acc with
  | nil => rfl
  | cons x xs ih =>
    obtain ⟨first, all⟩ := List.forall_mem_cons.1 all
    simp [reverseRuns, first, ih _ all]

theorem reverseRuns_of_none (none : ∀ x ∈ xs, test x = false) : reverseRuns test [] xs = xs := by
  induction xs with
  | nil => rfl
  | cons x xs ih =>
    obtain ⟨first, none⟩ := List.forall_mem_cons.1 none
    simp [reverseRuns, first, ih none]

theorem reverseRuns_append_left (none : ∀ x ∈ xs, test x = false) :
    reverseRuns test [] (xs ++ ys) = xs ++ reverseRuns test [] ys := by
  induction xs with
  | nil => rfl
  | cons x xs ih =>
    obtain ⟨first, none⟩ := List.forall_mem_cons.1 none
    simp [reverseRuns, first, ih none]

theorem reverseRuns_append_right (none : ∀ y ∈ ys, test y = false) :
    reverseRuns test [] (xs ++ ys) = reverseRuns test [] xs ++ ys := by
  cases ys with
  | nil => simp
  | cons y ys =>
    obtain ⟨first, none⟩ := List.forall_mem_cons.1 none
    rw [reverseRuns_part [] xs ys first, reverseRuns_of_none none]

/-- A run between two parts outside it is reversed in its place. -/
theorem reverseRuns_between {zs : List α} (before : ∀ x ∈ xs, test x = false) (run : ∀ y ∈ ys, test y = true)
    (after : ∀ z ∈ zs, test z = false) : reverseRuns test [] (xs ++ ys ++ zs) = xs ++ ys.reverse ++ zs := by
  rw [reverseRuns_append_right after, reverseRuns_append_left before, reverseRuns_of_all [] run, List.append_nil]

theorem exposureOrder_left (xs : List (α × Bool)) :
    exposureOrder false xs = (reverseRuns (·.2) [] xs).map (·.1) := rfl

theorem exposureOrder_right (xs : List (α × Bool)) :
    exposureOrder true xs = (reverseRuns (fun x => !x.2) [] xs.reverse).map (·.1) := rfl

theorem not_all_of {xs : List (α × Bool)} {k : Bool} (all : ∀ x ∈ xs, x.2 = k) : ∀ x ∈ xs.reverse, (!x.2) = !k :=
  fun x hx => by rw [all x (List.mem_reverse.1 hx)]

/-- Settles O43: the two base directions are the one reversal of runs, read from either end. -/
theorem exposureOrderRearrangesTheLine : Obligations.ExposureOrderRearrangesTheLine := by
  unfold Obligations.ExposureOrderRearrangesTheLine
  refine ⟨exposureOrder_perm, fun xs ys a => ⟨?_, ?_⟩, fun xs all => ⟨?_, ?_⟩, fun xs all => ⟨?_, ?_⟩,
    fun a b c => ⟨fun ha hb hc => ?_, fun ha hb hc => ?_⟩⟩
  · rw [exposureOrder_left, reverseRuns_part (a := (a, false)) [] xs ys rfl, List.map_append]
    rfl
  · have reversed : (xs ++ (a, true) :: ys).reverse = ys.reverse ++ (a, true) :: xs.reverse := by simp
    rw [exposureOrder_right, reversed,
      reverseRuns_part (test := fun x => !x.2) (a := (a, true)) [] ys.reverse xs.reverse rfl, List.map_append]
    rfl
  · rw [exposureOrder_left, reverseRuns_of_all [] all, List.append_nil, List.map_reverse]
  · rw [exposureOrder_right, reverseRuns_of_none (not_all_of all), List.map_reverse]
  · rw [exposureOrder_left, reverseRuns_of_none all]
  · rw [exposureOrder_right, reverseRuns_of_all [] (not_all_of all), List.append_nil, List.reverse_reverse]
  · rw [exposureOrder_left, reverseRuns_between ha hb hc, List.map_append, List.map_append, List.map_reverse]
  · rw [exposureOrder_right, List.reverse_append, List.reverse_append, ← List.append_assoc,
      reverseRuns_between (not_all_of hc) (not_all_of hb) (not_all_of ha), List.reverse_reverse, List.map_append,
      List.map_append, List.map_reverse, List.map_reverse]

end

/-! ## What the takers of a shortfall take (R97, R99, R101) -/

/-- What the first takers of a counter take together, from a counter value on. -/
def takenSum (f : Nat → Nat) (start : Nat) : Nat → Nat
  | 0 => 0
  | n + 1 => f start + takenSum f (start + 1) n

theorem takenSum_const (c start n : Nat) : takenSum (fun _ => c) start n = n * c := by
  induction n generalizing start with
  | zero => simp [takenSum]
  | succ n ih => rw [takenSum, ih]; ring

theorem takenSum_add (f g : Nat → Nat) (start n : Nat) :
    takenSum (fun i => f i + g i) start n = takenSum f start n + takenSum g start n := by
  induction n generalizing start with
  | zero => rfl
  | succ n ih => simp only [takenSum, ih]; omega

/-- Shares of a and a + 1: each taker takes a, and those before the b-th one more. -/
theorem takenSum_share (a b start n : Nat) :
    takenSum (share a b) start n = n * a + min n (b - start) := by
  induction n generalizing start with
  | zero => simp [takenSum]
  | succ n ih =>
    rw [takenSum, ih, Nat.succ_mul]
    unfold share
    split <;> omega

/-- The takers of a total take it whole. -/
theorem takenSum_share_total {n : Nat} (taker : 0 < n) (total : Nat) :
    takenSum (share (total / n) (total % n)) 0 n = total := by
  have less := Nat.mod_lt total taker
  rw [takenSum_share, Nat.sub_zero, Nat.min_eq_right less.le, Nat.div_add_mod]

theorem share_le {n total c : Nat} (most : total ≤ n * c) (i : Nat) :
    share (total / n) (total % n) i ≤ c := by
  unfold share
  have whole := Nat.div_add_mod total n
  split
  · next before =>
    by_contra big
    have : n * c ≤ n * (total / n) := Nat.mul_le_mul_left n (by omega)
    omega
  · exact Nat.div_le_of_le_mul most

/-! ## The sum of a line's escapements (R105) -/

section
variable {slots : Vector Slot 8} {h : Header} {line : LineAssembly}

/-- The escapements that the elements of a line have before justification. -/
def baseSum (xs : List LineElement) : Nat := (xs.map LineElement.base).sum

/-- How many word spaces a line has. -/
def spaceCount (xs : List LineElement) : Nat := xs.countP fun e => decide (e = .space)

theorem setOut_sum (spaceAt gapAt : Nat → Nat) (si gi : Nat) (xs : List LineElement) :
    ((setOut spaceAt gapAt si gi xs).map (·.2)).sum =
      baseSum xs + takenSum spaceAt si (spaceCount xs) + takenSum gapAt gi (gapCount xs) := by
  induction xs generalizing si gi with
  | nil => rfl
  | cons x xs ih =>
    cases x with
    | space =>
      have count : spaceCount (.space :: xs) = spaceCount xs + 1 := by simp [spaceCount]
      have base : baseSum (.space :: xs) = baseSum xs := by simp [baseSum, LineElement.base]
      rw [count, base, takenSum]
      simp only [setOut, List.map_cons, List.sum_cons, ih, gapCount]
      omega
    | elongation i g f p z =>
      have count : spaceCount (.elongation i g f p z :: xs) = spaceCount xs := by simp [spaceCount]
      have base : baseSum (.elongation i g f p z :: xs) = f + baseSum xs := by simp [baseSum, LineElement.base]
      rw [count, base]
      simp only [setOut, List.map_cons, List.sum_cons, ih, gapCount]
      omega
    | glyph first f g =>
      have count : spaceCount (.glyph first f g :: xs) = spaceCount xs := by simp [spaceCount]
      have base : baseSum (.glyph first f g :: xs) = f + baseSum xs := by simp [baseSum, LineElement.base]
      rw [count, base]
      cases gap : gapAfter g xs with
      | true =>
        have gaps : gapCount (.glyph first f g :: xs) = gapCount xs + 1 := by simp [gapCount, gap]; omega
        rw [gaps, takenSum]
        simp only [setOut, gap, if_true, List.map_cons, List.sum_cons, ih]
        omega
      | false =>
        have gaps : gapCount (.glyph first f g :: xs) = gapCount xs := by simp [gapCount, gap]
        rw [gaps]
        simp only [setOut, gap, Bool.false_eq_true, if_false, List.map_cons, List.sum_cons, ih]
        omega

/-! ## Elongation (R95, R96) -/

/-- The escapement of the elongation glyph that a place takes; 0 where there is none. -/
def elongationWidth (slots : Vector Slot 8) (x : LineElement) : Nat :=
  match elongationAfter slots x with
  | none => 0
  | some e => e.base

/-- What the elongation glyphs inserted so far take. -/
def elongationSum (slots : Vector Slot 8) (xs : List (LineElement × Nat)) : Nat :=
  (xs.map fun x => x.2 * elongationWidth slots x.1).sum

theorem elongationWidth_of_some {x e : LineElement} (after : elongationAfter slots x = some e) :
    elongationWidth slots x = e.base := by
  unfold elongationWidth
  rw [after]

/-- A round of insertion takes from the shortfall what it inserts. -/
theorem elongationRound_spec (limit short count : Nat) (xs : List (LineElement × Nat)) :
    (elongationRound slots limit short count xs).1.map (·.1) = xs.map (·.1) ∧
      elongationSum slots (elongationRound slots limit short count xs).1 +
        (elongationRound slots limit short count xs).2.1 = elongationSum slots xs + short := by
  induction xs generalizing short count with
  | nil => exact ⟨rfl, rfl⟩
  | cons x xs ih =>
    obtain ⟨x, n⟩ := x
    have sum (m : Nat) (ys : List (LineElement × Nat)) :
        elongationSum slots ((x, m) :: ys) = m * elongationWidth slots x + elongationSum slots ys := rfl
    unfold elongationRound
    cases after : elongationAfter slots x with
    | none =>
      obtain ⟨same, total⟩ := ih short count
      dsimp only
      rw [List.map_cons, same, sum, sum]
      exact ⟨rfl, by omega⟩
    | some e =>
      dsimp only
      split
      · next takes =>
        obtain ⟨same, total⟩ := ih (short - e.base) (count + 1)
        dsimp only
        rw [List.map_cons, same, sum, sum, elongationWidth_of_some after, Nat.succ_mul]
        exact ⟨rfl, by omega⟩
      · obtain ⟨same, total⟩ := ih short count
        dsimp only
        rw [List.map_cons, same, sum, sum]
        exact ⟨rfl, by omega⟩

theorem elongationRounds_spec (limit rounds : Nat) (r : List (LineElement × Nat) × Nat × Nat) :
    (elongationRounds slots limit rounds r).1.map (·.1) = r.1.map (·.1) ∧
      elongationSum slots (elongationRounds slots limit rounds r).1 + (elongationRounds slots limit rounds r).2.1 =
        elongationSum slots r.1 + r.2.1 := by
  induction rounds generalizing r with
  | zero => exact ⟨rfl, rfl⟩
  | succ n ih =>
    obtain ⟨same, total⟩ := ih (elongationRound slots limit r.2.1 r.2.2 r.1)
    obtain ⟨one, first⟩ := elongationRound_spec (slots := slots) limit r.2.1 r.2.2 r.1
    exact ⟨same.trans one, total.trans first⟩

theorem baseSum_append (xs ys : List LineElement) : baseSum (xs ++ ys) = baseSum xs + baseSum ys := by
  simp [baseSum]

theorem spaceCount_append (xs ys : List LineElement) : spaceCount (xs ++ ys) = spaceCount xs + spaceCount ys :=
  List.countP_append

theorem elongationAfter_ne_space {x e : LineElement} (after : elongationAfter slots x = some e) : e ≠ .space := by
  unfold elongationAfter at after
  repeat' split at after
  all_goals cases after
  exact fun e => by cases e

/-- The elements back in logical order with what was inserted after each. -/
theorem insertElongation_spec (xs : List (LineElement × Nat)) :
    baseSum (insertElongation slots xs) = baseSum (xs.map (·.1)) + elongationSum slots xs ∧
      spaceCount (insertElongation slots xs) = spaceCount (xs.map (·.1)) := by
  induction xs with
  | nil => exact ⟨rfl, rfl⟩
  | cons x xs ih =>
    obtain ⟨x, n⟩ := x
    obtain ⟨base, count⟩ := ih
    have sum : elongationSum slots ((x, n) :: xs) = n * elongationWidth slots x + elongationSum slots xs := rfl
    have cons (ys : List LineElement) : baseSum (x :: ys) = x.base + baseSum ys := rfl
    obtain ⟨own, consCount⟩ : ∃ k, ∀ ys : List LineElement, spaceCount (x :: ys) = k + spaceCount ys :=
      ⟨spaceCount [x], spaceCount_append [x]⟩
    unfold insertElongation
    rw [baseSum_append, spaceCount_append, List.map_cons, cons, cons, consCount, consCount, base, count, sum]
    cases after : elongationAfter slots x with
    | none =>
      have width : elongationWidth slots x = 0 := by unfold elongationWidth; rw [after]
      have nothing : baseSum [] = 0 ∧ spaceCount [] = 0 := ⟨rfl, rfl⟩
      dsimp only
      rw [width, nothing.1, nothing.2]
      exact ⟨by omega, by omega⟩
    | some e =>
      have plain := elongationAfter_ne_space after
      have inserted : baseSum (List.replicate n e) = n * e.base := by simp [baseSum]
      have spaces : spaceCount (List.replicate n e) = 0 := by simp [spaceCount, List.countP_replicate, plain]
      dsimp only
      rw [elongationWidth_of_some after, inserted, spaces]
      exact ⟨by omega, by omega⟩

/-- Elongation takes from the shortfall what it adds to the line, and adds no word space. -/
theorem elongate_spec (short : Nat) :
    baseSum (elongate slots h line short).1 + (elongate slots h line short).2 = baseSum line.elements + short ∧
      spaceCount (elongate slots h line short).1 = spaceCount line.elements := by
  unfold elongate
  split
  · have start : (line.elements.reverse.map fun x => (x, 0)).map (·.1) = line.elements.reverse := by
      simp [Function.comp_def]
    have nothing : elongationSum slots (line.elements.reverse.map fun x => (x, 0)) = 0 := by
      simp [elongationSum, Function.comp_def]
    obtain ⟨same, total⟩ := elongationRounds_spec (slots := slots) h.elongationLimit h.elongationLimit
      (line.elements.reverse.map fun x => (x, 0), short, line.count)
    obtain ⟨base, count⟩ := insertElongation_spec (slots := slots) (elongationRounds slots h.elongationLimit
      h.elongationLimit (line.elements.reverse.map fun x => (x, 0), short, line.count)).1
    have reversed : baseSum line.elements.reverse = baseSum line.elements := by simp [baseSum, List.sum_reverse]
    have reversedCount : spaceCount line.elements.reverse = spaceCount line.elements := List.countP_reverse
    dsimp only at same total ⊢
    rw [base, count, same, start, reversed, reversedCount]
    rw [nothing] at total
    exact ⟨by omega, rfl⟩
  · exact ⟨rfl, rfl⟩

/-! ## A justified line (R94 to R101) -/

/-- The width of a line set out with these takers. -/
theorem width_setOut (spaceAt gapAt : Nat → Nat) (xs : List LineElement) (placing : Placing) (loose : Bool) :
    ({ elements := setOut spaceAt gapAt 0 0 xs, placing := placing, loose := loose } : SetLine).width =
      baseSum xs + takenSum spaceAt 0 (spaceCount xs) + takenSum gapAt 0 (gapCount xs) := setOut_sum _ _ _ _ _

/-- Spaces shrunk by an overrun that their minimum allows lose it exactly. -/
theorem shrunkSpace_sum (some : 0 < line.spaces) (order : line.spaceMin ≤ line.spaceNormal) {overrun : Nat}
    (most : overrun ≤ line.spaces * (line.spaceNormal - line.spaceMin)) :
    takenSum (shrunkSpace line overrun) 0 line.spaces + overrun = line.spaces * line.spaceNormal := by
  have whole := takenSum_share_total some overrun
  have restored : (fun i => shrunkSpace line overrun i + share (overrun / line.spaces) (overrun % line.spaces) i) =
      fun _ => line.spaceNormal := by
    funext i
    have := share_le most i
    unfold shrunkSpace
    omega
  have sum := takenSum_add (shrunkSpace line overrun) (share (overrun / line.spaces) (overrun % line.spaces)) 0 line.spaces
  rw [restored, takenSum_const, whole] at sum
  exact sum.symm

theorem justifyLine_width (some : 0 < line.spaces) (spaces : line.spaces = spaceCount line.elements)
    (sum : line.glyphSum = baseSum line.elements) (low : line.spaceMin ≤ line.spaceNormal)
    (high : line.spaceNormal ≤ line.spaceMax)
    (fits : line.glyphSum + line.spaces * line.spaceMin ≤ h.fineMeasure) :
    (justifyLine slots h line).width = h.fineMeasure := by
  have natural : naturalWidth line = line.glyphSum + line.spaces * line.spaceNormal := rfl
  unfold justifyLine
  dsimp only
  split
  · next wide =>
    have most : naturalWidth line - h.fineMeasure ≤ line.spaces * (line.spaceNormal - line.spaceMin) := by
      rw [Nat.mul_sub, natural]
      omega
    have shrunk := shrunkSpace_sum some low most
    rw [width_setOut, ← spaces, takenSum_const, ← sum]
    omega
  · next narrow =>
    obtain ⟨total, count⟩ := elongate_spec (slots := slots) (h := h) (line := line) (h.fineMeasure - naturalWidth line)
    rw [← spaces] at count
    rw [← sum] at total
    generalize elongate slots h line (h.fineMeasure - naturalWidth line) = r at total count
    have room : line.spaces * (line.spaceMax - line.spaceNormal) + line.spaces * line.spaceNormal =
        line.spaces * line.spaceMax := by rw [← Nat.mul_add, Nat.sub_add_cancel high]
    split
    · rw [width_setOut, count, takenSum_add, takenSum_const, takenSum_const, takenSum_share_total some]
      omega
    · next short =>
      split
      · next fill =>
        rw [width_setOut, count, takenSum_const, takenSum_share_total fill.1]
        omega
      · next loose =>
        have left : gapCount r.1 * line.letterLimit ≤ r.2 - line.spaces * (line.spaceMax - line.spaceNormal) := by
          by_cases gaps : 0 < gapCount r.1
          · exact (Nat.lt_of_not_le fun most => loose ⟨gaps, most⟩).le
          · rw [Nat.eq_zero_of_not_pos gaps, Nat.zero_mul]
            exact Nat.zero_le _
        rw [width_setOut, count, takenSum_add, takenSum_const, takenSum_const, takenSum_share_total some]
        omega

end

/-- Settles O42: each way of justification takes up the shortfall whole. -/
theorem justifiedLineFillsTheMeasure : Obligations.JustifiedLineFillsTheMeasure := by
  unfold Obligations.JustifiedLineFillsTheMeasure
  intro slots h line flags some spaces sum _ low high fits unforced middle unset
  have justified : setByQuad slots h line .justify flags = justifyLine slots h line := by
    unfold setByQuad
    rw [unset, unforced, middle]
    rfl
  rw [justified]
  exact justifyLine_width some spaces sum low high fits

end Sys2Proof.Machine

/-! What the events leave alone (95, opening): the parts that no event but those named changes. -/

namespace Sys2Proof.Machine

/-! ## The unit's ready line through the walk -/

section
variable {f : Film}

theorem Film.deliverBlank_ready (f : Film) : f.deliverBlank.img.ready = f.img.ready := by
  unfold Film.deliverBlank
  rw [Film.flagImageLost_img]
  rfl

theorem Film.beginLoad_ready (f : Film) (n : Fin 64) (k : Fin 8) (glyph : Nat) :
    (f.beginLoad n k glyph).img.ready = f.img.ready := by
  unfold Film.beginLoad
  dsimp only
  split
  · rw [Film.deliverBlank_ready]
    rfl
  · split <;> rfl

theorem Film.takeUp_ready (f : Film) (k : Fin 8) (p : PlacedGlyph) : (f.takeUp k p).img.ready = f.img.ready := by
  unfold Film.takeUp
  split
  · dsimp only
    split
    · show (Film.flagImageLost _).img.ready = _
      rw [Film.flagImageLost_img]
      rfl
    · rfl
  · rw [Film.beginLoad_ready]
    rfl

theorem Film.betweenLines_ready (f : Film) : f.betweenLines.img.ready = f.img.ready := by rw [Film.betweenLines_eq]

theorem Film.freeLine_ready (f : Film) : f.freeLine.img.ready = f.img.ready := by
  unfold Film.freeLine
  split
  · rfl
  · rw [Film.betweenLines_ready]

theorem Film.nextEntry_ready (f : Film) : f.nextEntry.img.ready = f.img.ready := by
  unfold Film.nextEntry
  split
  · rfl
  · split
    · exact f.betweenLines_ready
    · split
      · rw [Film.takeUp_ready]
        rfl
      · exact f.freeLine_ready

theorem Film.exposeLoaded_ready (f : Film) (n : Fin 64) : (f.exposeLoaded n).img.ready = f.img.ready := by
  unfold Film.exposeLoaded
  repeat' split
  all_goals rfl

theorem Film.acked_ready (f : Film) (r : Record) : (f.acked r).img.ready = f.img.ready := by
  cases r with
  | cacheClear => rfl
  | galleyOpen number link continuation dots => exact f.betweenLines_ready
  | advance dots => exact f.nextEntry_ready
  | loadOutline n ws => exact f.exposeLoaded_ready n
  | exposeGlyph entry x raise p z => exact f.nextEntry_ready
  | killMark => rfl
  | galleyClose => rfl

end

/-! ## The causes of attention -/

theorem CausesKept.refl (a : Attention) : CausesKept a a := ⟨id, id, id, id, id, id, id, id⟩

theorem CausesKept.trans {a b c : Attention} (x : CausesKept a b) (y : CausesKept b c) : CausesKept a c where
  installDone h := y.installDone (x.installDone h)
  installFailed h := y.installFailed (x.installFailed h)
  unitFault h := y.unitFault (x.unitFault h)
  unitTimeout h := y.unitTimeout (x.unitTimeout h)
  guardViolation h := y.guardViolation (x.guardViolation h)
  cartridgeChange h := y.cartridgeChange (x.cartridgeChange h)
  imageLost h := y.imageLost (x.imageLost h)
  storeStalled h := y.storeStalled (x.storeStalled h)

theorem State.noticeStall_attention (s : State) : CausesKept s.attention s.noticeStall.attention := by
  unfold State.noticeStall
  dsimp only
  split
  · exact ⟨id, id, id, id, id, id, id, fun _ => rfl⟩
  · exact .refl _

theorem State.settle_causes (s : State) : CausesKept s.attention s.settle.attention := by
  have before : s.wakeWalk.selectionRound.giveBus.replies.attention = s.attention := by
    rw [State.replies_eq, State.giveBus_eq, State.selectionRound_eq, State.wakeWalk_eq]
  rw [← before]
  exact State.noticeStall_attention _

/-! ## The reactions -/

theorem State.settle_ready (s : State) : s.settle.imaging.ready = s.imaging.ready := by
  rw [State.settle_imaging_eq]
  rcases s.wakeWalk.selectionRound_cases with ⟨e, -⟩ | ⟨g, r, -, -, -, -, e⟩
  · rw [e, State.wakeWalk_imaging]
  · rw [e]
    show s.wakeWalk.imaging.ready = _
    rw [State.wakeWalk_imaging]

theorem State.settle_feReady (s : State) (i : Fin 4) : s.settle.links[i].tx.feReady = s.links[i].tx.feReady := by
  obtain ⟨t, -, link, -⟩ := s.settle_reply i
  rw [link]
  rcases takeReply_cases t i s.links[i] with ⟨e, -⟩ | ⟨m, -, e⟩ | ⟨e, -⟩ | ⟨g, r, -, -, -, e⟩ <;> rw [e]
  · rfl
  · rfl

/-! ## Parts kept -/

/-- What only the events named for it change: the queue, the free-value counter, which rises, the station's last word, the
banks, the outside lines. -/
structure Steady (s t : State) : Prop where
  pending : t.pending = s.pending
  free : s.free ≤ t.free
  stationRead : t.stationRead = s.stationRead
  banks : t.banks = s.banks
  holdRequest : t.bus.holdRequest = s.bus.holdRequest
  ready : t.imaging.ready = s.imaging.ready
  feReady : ∀ i : Fin 4, t.links[i].tx.feReady = s.links[i].tx.feReady

/-- What events that bring no words to the port leave alone besides. -/
structure Untouched (s t : State) : Prop extends Steady s t where
  classes : t.classes = s.classes
  rotation : t.rotation = s.rotation
  port : t.port = s.port
  causes : CausesKept s.attention t.attention
  link : ∀ i : Fin 4, t.links[i].rx = s.links[i].rx ∧ t.links[i].setting = s.links[i].setting

section
variable {s t u : State}

theorem Steady.refl (s : State) : Steady s s := ⟨rfl, le_rfl, rfl, rfl, rfl, rfl, fun _ => rfl⟩

theorem Steady.trans (a : Steady s t) (b : Steady t u) : Steady s u where
  pending := b.pending.trans a.pending
  free := a.free.trans b.free
  stationRead := b.stationRead.trans a.stationRead
  banks := b.banks.trans a.banks
  holdRequest := b.holdRequest.trans a.holdRequest
  ready := b.ready.trans a.ready
  feReady i := (b.feReady i).trans (a.feReady i)

theorem Steady.settle (h : Steady s u) : Steady s u.settle where
  pending := u.settle_pending.trans h.pending
  free := u.settle_free ▸ h.free
  stationRead := u.settle_stationRead.trans h.stationRead
  banks := u.settle_banks.trans h.banks
  holdRequest := u.settle_holdRequest.trans h.holdRequest
  ready := u.settle_ready.trans h.ready
  feReady i := (u.settle_feReady i).trans (h.feReady i)

theorem Untouched.refl (s : State) : Untouched s s := ⟨.refl s, rfl, rfl, rfl, .refl _, fun _ => ⟨rfl, rfl⟩⟩

theorem Untouched.settle (h : Untouched s u) : Untouched s u.settle where
  toSteady := h.toSteady.settle
  classes := u.settle_classes.trans h.classes
  rotation := u.settle_rotation.trans h.rotation
  port := u.settle_port.trans h.port
  causes := h.causes.trans u.settle_causes
  link i := ⟨(u.settle_link i).1.trans (h.link i).1, (u.settle_link i).2.trans (h.link i).2⟩

/-- An event that changes slots, copy, table, bus holder or the Exposure Controller alone. -/
theorem Untouched.of_inside (rest : u = { s with slots := u.slots, copy := u.copy, table := u.table
                                                 bus := { s.bus with holder := u.bus.holder, last := u.bus.last }
                                                 imaging := u.imaging })
    (ready : u.imaging.ready = s.imaging.ready) : Untouched s u := by
  rw [rest]
  exact ⟨⟨rfl, le_rfl, rfl, rfl, rfl, ready, fun _ => rfl⟩, rfl, rfl, rfl, .refl _, fun _ => ⟨rfl, rfl⟩⟩

end

/-! ## The install copy and presence changes -/

section
variable {s : State} {p : Fin 8}

theorem State.takeHeader_causes (s : State) (job : CopyJob) : CausesKept s.attention (s.takeHeader job).attention := by
  have failed (r : InstallReason) : CausesKept s.attention (s.failCopy job.slot r).attention :=
    ⟨id, fun _ => rfl, id, id, id, id, id, id⟩
  unfold State.takeHeader
  dsimp only
  repeat' split
  · exact failed _
  · exact failed _
  · exact failed _
  · exact .refl _

theorem State.copyRead_causes (s : State) (job : CopyJob) : CausesKept s.attention (s.copyRead job).attention := by
  rcases s.copyRead_cases job with ⟨r, h⟩ | ⟨b, h⟩ | ⟨b, h⟩ | ⟨b, x, -, h | h⟩
  · rw [h]
    exact ⟨id, fun _ => rfl, id, id, id, id, id, id⟩
  · rw [h]
    exact .refl _
  · rw [h]
    exact State.takeHeader_causes { s with free := s.free + 9 } _
  · rw [h, State.completeCopy_eq]
    exact ⟨fun _ => rfl, id, id, id, id, id, id, id⟩
  · rw [h]
    exact .refl _

theorem State.copyRead_free (s : State) (job : CopyJob) : s.free ≤ (s.copyRead job).free := by
  rcases s.copyRead_cases job with ⟨r, h⟩ | ⟨b, h⟩ | ⟨b, h⟩ | ⟨b, x, -, h | h⟩
  · rw [h]
    exact le_rfl
  · rw [h]
    exact Nat.le_add_right _ _
  · rw [h, State.takeHeader_eq]
    exact Nat.le_add_right _ _
  · rw [h, State.completeCopy_eq]
  · rw [h]

theorem State.copyRead_untouched (s : State) (job : CopyJob) : Untouched s (s.copyRead job) := by
  have causes := s.copyRead_causes job
  have free := s.copyRead_free job
  rw [State.copyRead_eq] at causes free ⊢
  exact ⟨⟨rfl, free, rfl, rfl, rfl, rfl, fun _ => rfl⟩, rfl, rfl, rfl, causes, fun _ => ⟨rfl, rfl⟩⟩

theorem State.storePart_free (s : State) (p : Fin 8) (o : Nat) (ws : List Word) : (s.storePart p o ws).free = s.free + 1 := by
  rw [State.storePart_eq]

theorem State.cutStore_free (s : State) (p : Fin 8) : s.free ≤ (s.cutStore p).free := by
  unfold State.cutStore
  repeat' split
  · exact le_rfl
  · exact le_rfl
  · next q o ws _ _ _ =>
    show s.free ≤ (s.storePart q o ws).free
    rw [State.storePart_free]
    exact Nat.le_succ _
  · exact le_rfl
  · exact le_rfl

theorem State.powerCutStore_free (s : State) : s.free ≤ s.powerCutStore.free := by
  unfold State.powerCutStore
  split
  · rw [State.storePart_free]
    exact Nat.le_succ _
  · exact le_rfl

theorem State.loseSlot_installFailed_kept (s : State) (p i : Fin 8) (h : s.attention.installFailed.isSome = true) :
    (s.loseSlot p i).attention.installFailed.isSome = true := by
  unfold State.loseSlot
  dsimp only
  repeat' split
  · exact h
  · exact h
  · rfl
  · rw [State.withdraw_eq]
    exact h
  · exact h

theorem State.loseSlots_installFailed_kept (s : State) (p : Fin 8) (l : List (Fin 8))
    (h : s.attention.installFailed.isSome = true) : (s.loseSlots p l).attention.installFailed.isSome = true := by
  induction l generalizing s with
  | nil => exact h
  | cons i l ih => exact ih _ (s.loseSlot_installFailed_kept p i h)

theorem State.noteChange_causes (s : State) (p : Fin 8) : CausesKept s.attention (s.noteChange p).attention where
  installDone := id
  installFailed := id
  unitFault := id
  unitTimeout := id
  guardViolation := id
  cartridgeChange _ := rfl
  imageLost h := by
    unfold State.noteChange
    dsimp only
    split
    · rfl
    · exact h
  storeStalled := id

theorem State.loseSlots_causes (s : State) (p : Fin 8) (l : List (Fin 8)) :
    CausesKept s.attention (s.loseSlots p l).attention := by
  have failed := s.loseSlots_installFailed_kept p l
  rw [State.loseSlots_eq] at failed ⊢
  exact ⟨id, failed, id, id, id, id, id, id⟩

theorem State.cutFetch_ready (s : State) (p : Fin 8) : (s.cutFetch p).imaging.ready = s.imaging.ready := by
  unfold State.cutFetch
  repeat' split
  · rfl
  · exact Film.deliverBlank_ready _
  · rfl

end

end Sys2Proof.Machine

/-! What each event of the table leaves alone (95, opening; R154, R158). -/

namespace Sys2Proof.Machine

section
variable {s t u : State}

/-! ## Events of the inside -/

theorem Untouched.trans (a : Untouched s t) (b : Untouched t u) : Untouched s u where
  toSteady := a.toSteady.trans b.toSteady
  classes := b.classes.trans a.classes
  rotation := b.rotation.trans a.rotation
  port := b.port.trans a.port
  causes := a.causes.trans b.causes
  link i := ⟨(b.link i).1.trans (a.link i).1, (b.link i).2.trans (a.link i).2⟩

theorem Untouched.endUnit (s : State) : Untouched s s.endUnit := .of_inside rfl rfl

theorem State.copyStep_untouched (s : State) : Untouched s s.copyStep := by
  unfold State.copyStep
  split
  · exact .refl s
  · split
    · exact ((Untouched.endUnit s).trans (State.copyRead_untouched s.endUnit _)).settle
    · exact .refl s

theorem State.ackUnit_untouched (s : State) : Untouched s s.ackUnit := by
  unfold State.ackUnit
  split
  · exact .refl s
  · split
    · split
      · exact (Untouched.of_inside (u := s.onImaging Imaging.voidEnded) rfl (by
          unfold State.onImaging Imaging.voidEnded
          dsimp only
          split <;> rfl)).settle
      · exact (Untouched.of_inside (u := s.putFilm _) rfl (Film.acked_ready s.film _)).settle
    · exact .refl s

theorem State.faultUnit_untouched (s : State) (k : Option FaultKind) : Untouched s (s.faultUnit k) where
  pending := rfl
  free := le_rfl
  stationRead := rfl
  banks := rfl
  holdRequest := rfl
  ready := rfl
  feReady _ := rfl
  classes := rfl
  rotation := rfl
  port := rfl
  causes := by
    cases k with
    | none => exact ⟨id, id, id, fun _ => rfl, id, id, id, id⟩
    | some k => exact ⟨id, id, fun _ => rfl, id, id, id, id, id⟩
  link _ := ⟨rfl, rfl⟩

theorem Imaging.voidEnded_ready (m : Imaging) : m.voidEnded.ready = m.ready := by
  unfold Imaging.voidEnded
  dsimp only
  split <;> rfl

theorem State.concludeRecord_untouched (s : State) (k : Option FaultKind) : Untouched s (s.concludeRecord k) := by
  unfold State.concludeRecord
  split
  · exact .refl s
  · split
    · exact (Untouched.of_inside (u := s.onImaging Imaging.voidEnded) rfl (Imaging.voidEnded_ready _)).settle
    · exact (s.faultUnit_untouched k).settle

theorem State.answerWord_untouched (s : State) (w : Word) : Untouched s (s.answerWord w) := by
  unfold State.answerWord
  split
  · exact s.ackUnit_untouched
  · exact s.concludeRecord_untouched _
  · exact s.concludeRecord_untouched _
  · exact s.concludeRecord_untouched _
  · exact .refl s

theorem State.fetchDone_untouched (s : State) : Untouched s s.fetchDone := by
  unfold State.fetchDone
  split
  · exact .refl s
  · split
    · next f _ _ =>
      exact (Untouched.of_inside (s := s) (u := { s.endUnit with imaging := s.imaging.deliver (s.outlineWords f) }) rfl
        rfl).settle
    · exact .refl s

theorem Untouched.of_link {i : Fin 4} {l : Link} (links : u = { s with links := s.links.set i l })
    (rx : l.rx = s.links[i].rx) (setting : l.setting = s.links[i].setting) (feReady : l.tx.feReady = s.links[i].tx.feReady) :
    Untouched s u := by
  subst links
  have link (j : Fin 4) : (s.links.set i l)[j].tx.feReady = s.links[j].tx.feReady ∧
      (s.links.set i l)[j].rx = s.links[j].rx ∧ (s.links.set i l)[j].setting = s.links[j].setting := by
    by_cases same : i = j
    · subst same
      rw [set_same]
      exact ⟨feReady, rx, setting⟩
    · rw [set_other _ same]
      exact ⟨rfl, rfl, rfl⟩
  exact ⟨⟨rfl, le_rfl, rfl, rfl, rfl, rfl, fun j => (link j).1⟩, rfl, rfl, rfl, .refl _, fun j => (link j).2⟩

theorem State.byteSent_untouched (s : State) (i : Fin 4) : Untouched s (s.byteSent i) := by
  unfold State.byteSent
  split
  · exact .refl s
  · split
    · refine Untouched.of_link (i := i) (State.onLink_eq s i _) rfl rfl ?_
      unfold Transmitter.nextByte
      split <;> rfl
    · refine Untouched.settle ?_
      have sent : Untouched s (s.onLink i Link.replied) := Untouched.of_link (i := i) (State.onLink_eq s i _) rfl rfl rfl
      have links := s.completeReply_links i
      rw [State.completeReply_eq]
      exact ⟨⟨rfl, le_rfl, rfl, rfl, rfl, rfl, fun j => by rw [links]; exact sent.feReady j⟩, rfl, rfl, rfl, .refl _,
        fun j => by rw [links]; exact sent.link j⟩

/-! ## Events with one part of their own

Each is one that leaves all untouched, taken from the state with that part as the event leaves it. -/

theorem State.stationReads_untouched (s : State) (p : Fin 8) (o : Nat) :
    Untouched { s with stationRead := (s.stationReads p o).stationRead } (s.stationReads p o) := by
  unfold State.stationReads
  split <;> exact .refl _

theorem State.stationWrites_untouched (s : State) (p : Fin 8) (o : Nat) (w : Word) :
    Untouched { s with banks := (s.stationWrites p o w).banks } (s.stationWrites p o w) := by
  unfold State.stationWrites
  split
  · split
    · exact ⟨⟨rfl, le_rfl, rfl, rfl, rfl, rfl, fun _ => rfl⟩, rfl, rfl, rfl, ⟨id, id, id, id, fun _ => rfl, id, id, id⟩,
        fun _ => ⟨rfl, rfl⟩⟩
    · exact .refl _
  · exact .refl _

theorem State.readDone_untouched (s : State) : Untouched { s with port := s.readDone.port } s.readDone := by
  have read (r : List Word) :
      Untouched { s with port := (s.endUnit.respond r).settle.port } (s.endUnit.respond r).settle := by
    rw [State.settle_port]
    exact (Untouched.of_inside (s := { s with port := (s.endUnit.respond r).port }) (u := s.endUnit.respond r) rfl rfl).settle
  unfold State.readDone
  split
  · exact read _
  · exact .refl s

theorem State.writeDone_untouched (s : State) :
    Untouched { s with port := s.writeDone.port, banks := s.writeDone.banks } s.writeDone := by
  have written (v : State) (r : List Word) (rest : v = { s with banks := v.banks }) :
      Untouched { s with port := (v.endUnit.respond r).settle.port, banks := (v.endUnit.respond r).settle.banks }
        (v.endUnit.respond r).settle := by
    rw [State.settle_port, State.settle_banks]
    refine (Untouched.of_inside ?_ ?_).settle
    · rw [rest]
      rfl
    · rw [rest]
      rfl
  unfold State.writeDone
  split
  · split
    · exact written s _ rfl
    · exact written (s.storeAt _ _ _) _ rfl
  · exact .refl s

theorem State.cutStore_rest (s : State) (p : Fin 8) :
    (s.cutStore p).pending = s.pending ∧ (s.cutStore p).rotation = s.rotation ∧
      (s.cutStore p).stationRead = s.stationRead ∧ (s.cutStore p).bus.holdRequest = s.bus.holdRequest ∧
      (s.cutStore p).links = s.links := by
  rw [s.cutStore_eq p]
  exact ⟨rfl, rfl, rfl, rfl, rfl⟩

theorem State.presenceChanged_rest (s : State) (p : Fin 8) (k : Socket) (m : Option (List (Nat × Word))) :
    (s.presenceChanged p k m).pending = (s.cutStore p).pending ∧
      (s.presenceChanged p k m).free = (s.cutStore p).free ∧
      (s.presenceChanged p k m).rotation = (s.cutStore p).rotation ∧
      (s.presenceChanged p k m).stationRead = (s.cutStore p).stationRead ∧
      (s.presenceChanged p k m).bus = (s.cutStore p).bus ∧ (s.presenceChanged p k m).links = (s.cutStore p).links := by
  unfold State.presenceChanged
  rw [State.cutFetch_eq, State.loseSlots_eq]
  exact ⟨rfl, rfl, rfl, rfl, rfl, rfl⟩

theorem State.presenceChanged_ready (s : State) (p : Fin 8) (k : Socket) (m : Option (List (Nat × Word))) :
    (s.presenceChanged p k m).imaging.ready = s.imaging.ready := by
  rw [State.presenceChanged_eq, State.cutFetch_ready, (s.slotsLost_work p k m).2]

theorem State.presenceChanged_causes (s : State) (p : Fin 8) (k : Socket) (m : Option (List (Nat × Word))) :
    CausesKept s.attention (s.presenceChanged p k m).attention := by
  have noted := ((s.cutStore p).senseSocket p k m).noteChange_causes p
  rw [show ((s.cutStore p).senseSocket p k m).attention = s.attention from s.cutStore_attention p] at noted
  rw [State.presenceChanged_eq, State.cutFetch_attention]
  exact noted.trans (State.loseSlots_causes _ p slotIds)

/-- An event that changes, of the outside parts, the port and the banks alone. -/
theorem Untouched.besides_store (pending : u.pending = s.pending) (free : s.free ≤ u.free)
    (stationRead : u.stationRead = s.stationRead) (hold : u.bus.holdRequest = s.bus.holdRequest)
    (ready : u.imaging.ready = s.imaging.ready) (classes : u.classes = s.classes) (rotation : u.rotation = s.rotation)
    (causes : CausesKept s.attention u.attention) (links : u.links = s.links) :
    Untouched { s with port := u.port, banks := u.banks } u :=
  ⟨⟨pending, free, stationRead, rfl, hold, ready, fun i => by rw [links]⟩, classes, rotation, rfl, causes,
    fun i => by rw [links]; exact ⟨rfl, rfl⟩⟩

theorem State.presenceChanged_untouched (s : State) (p : Fin 8) (k : Socket) (m : Option (List (Nat × Word))) :
    Untouched { s with port := (s.presenceChanged p k m).port, banks := (s.presenceChanged p k m).banks }
      (s.presenceChanged p k m) := by
  obtain ⟨pending, rotation, stationRead, hold, links⟩ := s.cutStore_rest p
  obtain ⟨pending', free', rotation', stationRead', bus', links'⟩ := s.presenceChanged_rest p k m
  have free : s.free ≤ (s.presenceChanged p k m).free := by
    rw [free']
    exact s.cutStore_free p
  have sameHold : (s.presenceChanged p k m).bus.holdRequest = s.bus.holdRequest := by rw [bus', hold]
  exact .besides_store (pending'.trans pending) free (stationRead'.trans stationRead) sameHold
    (s.presenceChanged_ready p k m) (s.presenceChanged_classes p k m) (rotation'.trans rotation)
    (s.presenceChanged_causes p k m) (links'.trans links)

theorem State.changePresence_untouched (s : State) (p : Fin 8) (k : Socket) (m : Option (List (Nat × Word))) :
    Untouched { s with port := (s.changePresence p k m).port, banks := (s.changePresence p k m).banks }
      (s.changePresence p k m) := by
  cases h : socketChanges s.banks[p] k m with
  | false =>
    rw [State.changePresence_of_none h]
    exact .refl s
  | true =>
    rw [State.changePresence_of_change h, State.settle_port, State.settle_banks]
    exact (s.presenceChanged_untouched p k m).settle

/-- An event of the unit's ready line: the Exposure Controller alone before the reactions. -/
theorem State.onImaging_untouched (s : State) (f : Imaging → Imaging) :
    Untouched { s with imaging := { s.imaging with ready := (s.onImaging f).imaging.ready } } (s.onImaging f) :=
  .of_inside (s := { s with imaging := { s.imaging with ready := (f s.imaging).ready } }) (u := s.onImaging f) rfl rfl

theorem State.readyOnUnit_untouched (s : State) :
    Untouched { s with imaging := { s.imaging with ready := s.readyOnUnit.imaging.ready } } s.readyOnUnit := by
  unfold State.readyOnUnit
  split
  · exact .refl s
  · split
    · rw [State.settle_ready]
      exact (s.onImaging_untouched Imaging.comeOn).settle
    · exact s.onImaging_untouched fun m => { m with ready := true }

theorem State.readyOffUnit_untouched (s : State) :
    Untouched { s with imaging := { s.imaging with ready := s.readyOffUnit.imaging.ready } } s.readyOffUnit := by
  unfold State.readyOffUnit
  split
  · dsimp only
    split
    · exact s.onImaging_untouched fun m => { m with ready := false }
    · split
      · rw [State.settle_ready]
        exact (s.onImaging_untouched fun m => { m with ready := false, unit := .offline }).settle
      · rw [State.settle_ready]
        exact ((s.onImaging_untouched fun m => { m with ready := false }).trans
          (State.faultUnit_untouched _ (some .notReady))).settle
  · exact .refl s

end

end Sys2Proof.Machine

/-! What commands leave alone (R154, R158; 95, opening): the library's commands, the words of the port, and all together. -/

namespace Sys2Proof.Machine

/-! ## Library commands that act -/

/-- What a library command leaves alone that is named for none of these parts. -/
structure Unmoved (s t : State) : Prop where
  offered : t.port.offered = s.port.offered
  classes : t.classes = s.classes
  rotation : t.rotation = s.rotation
  copy : t.copy = s.copy
  slots : t.slots = s.slots
  causes : CausesKept s.attention t.attention
  link : ∀ i : Fin 4, t.links[i].rx = s.links[i].rx ∧ t.links[i].setting = s.links[i].setting
  feReady : ∀ i : Fin 4, t.links[i].tx.feReady = s.links[i].tx.feReady

/-- What a library command taken whole leaves alone. -/
def LibKeeps (c : LibCommand) (s t : State) : Prop :=
  t.port.offered = s.port.offered ∧
    ((∀ n l, c ≠ .loadClassList n l) → t.classes = s.classes) ∧
    (c ≠ .libraryReset →
      t.rotation = s.rotation ∧
      ((∀ b o, c ≠ .installFont b o) → t.copy = s.copy) ∧
      ((∀ b o, c ≠ .installFont b o) → (∀ n, c ≠ .retireFont n) → t.slots = s.slots) ∧
      ((∀ w, c ≠ .acknowledgeAttention w) → CausesKept s.attention t.attention) ∧
      ∀ i : Fin 4, ((∀ l r e k, c ≠ .setLink l r e k) → t.links[i].rx = s.links[i].rx) ∧
        ((∀ n, c ≠ .killGalley n) → t.links[i].setting = s.links[i].setting))

section
variable {c : LibCommand} {s t u : State}

theorem Unmoved.refl (s : State) : Unmoved s s := ⟨rfl, rfl, rfl, rfl, rfl, .refl _, fun _ => ⟨rfl, rfl⟩, fun _ => rfl⟩

theorem Unmoved.settle (h : Unmoved s u) : Unmoved s u.settle where
  offered := (congrArg Port.offered u.settle_port).trans h.offered
  classes := u.settle_classes.trans h.classes
  rotation := u.settle_rotation.trans h.rotation
  copy := u.settle_copy.trans h.copy
  slots := u.settle_slots.trans h.slots
  causes := h.causes.trans u.settle_causes
  link i := ⟨(u.settle_link i).1.trans (h.link i).1, (u.settle_link i).2.trans (h.link i).2⟩
  feReady i := (u.settle_feReady i).trans (h.feReady i)

/-- A response, a table and an Exposure Controller are no part of these. -/
theorem Unmoved.of_inside (rest : u = { s with
    table := u.table, imaging := u.imaging, port := { s.port with phase := u.port.phase } }) : Unmoved s u := by
  rw [rest]
  exact ⟨rfl, rfl, rfl, rfl, rfl, .refl _, fun _ => ⟨rfl, rfl⟩, fun _ => rfl⟩

theorem Unmoved.respond (s : State) (r : List Word) : Unmoved s (s.respond r) := .of_inside rfl

/-- A command's own part changed first, and then none of these. -/
theorem LibKeeps.then (k : LibKeeps c s u) (h : Unmoved u t) : LibKeeps c s t := by
  obtain ⟨offered, classes, rest⟩ := k
  refine ⟨h.offered.trans offered, fun n => h.classes.trans (classes n), fun n => ?_⟩
  obtain ⟨rotation, copy, slots, causes, link⟩ := rest n
  exact ⟨h.rotation.trans rotation, fun n => h.copy.trans (copy n), fun n m => h.slots.trans (slots n m),
    fun n => (causes n).trans h.causes, fun i => ⟨fun n => (h.link i).1.trans ((link i).1 n),
      fun n => (h.link i).2.trans ((link i).2 n)⟩⟩

theorem LibKeeps.refl (c : LibCommand) (s : State) : LibKeeps c s s :=
  ⟨rfl, fun _ => rfl, fun _ => ⟨rfl, fun _ => rfl, fun _ _ => rfl, fun _ => .refl _, fun _ => ⟨fun _ => rfl, fun _ => rfl⟩⟩⟩

/-- What a command that acts keeps, with the front ends' ready lines. -/
def ActKeeps (c : LibCommand) (s t : State) : Prop :=
  LibKeeps c s t ∧ ∀ i : Fin 4, t.links[i].tx.feReady = s.links[i].tx.feReady

theorem ActKeeps.of_unmoved (h : Unmoved s t) : ActKeeps c s t := ⟨(LibKeeps.refl c s).then h, h.feReady⟩

theorem actInstallFont_keeps (bank : Word) (offset : BitVec 32) (s : State) :
    ActKeeps (.installFont bank offset) s (actInstallFont bank offset s) := by
  unfold actInstallFont
  split
  · exact .of_unmoved (.respond s _)
  · split
    · exact .of_unmoved (.respond s _)
    · next i _ =>
      have own : LibKeeps (.installFont bank offset) s (s.startCopy i bank.toNat offset.toNat) := by
        have causes : CausesKept s.attention (s.startCopy i bank.toNat offset.toNat).attention := by
          unfold State.startCopy
          dsimp only
          split
          · exact ⟨id, fun _ => rfl, id, id, id, id, id, id⟩
          · split
            · exact .refl _
            · exact ⟨id, fun _ => rfl, id, id, id, id, id, id⟩
        rw [State.startCopy_eq] at causes ⊢
        exact ⟨rfl, fun _ => rfl, fun _ => ⟨rfl, fun n => absurd rfl (n _ _), fun n _ => absurd rfl (n _ _), fun _ => causes,
          fun _ => ⟨fun _ => rfl, fun _ => rfl⟩⟩⟩
      have after := (Unmoved.respond (s.startCopy i bank.toNat offset.toNat) startedResponse).settle
      refine ⟨own.then after, fun j => (after.feReady j).trans ?_⟩
      rw [State.startCopy_eq]

theorem actRetireFont_keeps (font : Word) (s : State) : ActKeeps (.retireFont font) s (actRetireFont font s) := by
  unfold actRetireFont
  split
  · exact .of_unmoved (.respond s _)
  · next i _ =>
    have own : LibKeeps (.retireFont font) s (s.withdraw i) := by
      rw [State.withdraw_eq]
      exact ⟨rfl, fun _ => rfl, fun _ => ⟨rfl, fun _ => rfl, fun _ n => absurd rfl (n _), fun _ => .refl _,
        fun _ => ⟨fun _ => rfl, fun _ => rfl⟩⟩⟩
    have after := (Unmoved.respond (s.withdraw i) doneResponse).settle
    refine ⟨own.then after, fun j => (after.feReady j).trans ?_⟩
    rw [State.withdraw_eq]

theorem actLoadClassList_keeps (count : Word) (entries : List ClassWords) (s : State) :
    ActKeeps (.loadClassList count entries) s (actLoadClassList count entries s) := by
  unfold actLoadClassList
  split
  · exact .of_unmoved (.respond s _)
  · split
    · exact .of_unmoved (.respond s _)
    · exact ⟨⟨rfl, fun n => absurd rfl (n _ _), fun _ => ⟨rfl, fun _ => rfl, fun _ _ => rfl, fun _ => .refl _,
        fun _ => ⟨fun _ => rfl, fun _ => rfl⟩⟩⟩, fun _ => rfl⟩

theorem actSetLink_keeps (link rate enable stray : Word) (s : State) :
    ActKeeps (.setLink link rate enable stray) s (actSetLink link rate enable stray s) := by
  unfold actSetLink
  split
  · next i r _ _ =>
    split
    · have kept (f : Receiver → Receiver) (j : Fin 4) :
          (modifyAt s.links i fun l => { l with rx := f l.rx })[j].setting = s.links[j].setting ∧
            (modifyAt s.links i fun l => { l with rx := f l.rx })[j].tx.feReady = s.links[j].tx.feReady := by
        by_cases same : i = j
        · subst same
          rw [modifyAt_same]
          exact ⟨rfl, rfl⟩
        · rw [modifyAt_other _ same]
          exact ⟨rfl, rfl⟩
      have own := kept fun rx => rx.control r (enable = 1#16) (stray = 1#16)
      exact ⟨⟨rfl, fun _ => rfl, fun _ => ⟨rfl, fun _ => rfl, fun _ _ => rfl, fun _ => .refl _,
        fun j => ⟨fun n => absurd rfl (n _ _ _ _), fun _ => (own j).1⟩⟩⟩, fun j => (own j).2⟩
    · exact .of_unmoved (.respond s _)
  · exact .of_unmoved (.respond s _)

/-- A kill touches of its link the setting context alone. -/
theorem Bench.killGalley_frame (b : Bench) (g : Fin 32) :
    (b.killGalley g).link = { b.link with setting := (b.killGalley g).link.setting } ∧ (b.killGalley g).slots = b.slots := by
  unfold Bench.killGalley
  dsimp only
  generalize (decide (b.link.setting.galley = some g) && _) = current
  split
  · obtain ⟨-, opens, -⟩ := ({ b with table := b.table.kill g .killed } : Bench).killParser_killed
    exact ⟨opens.link, opens.slots⟩
  · exact ⟨rfl, rfl⟩

theorem actKillGalley_keeps (index : Word) (s : State) : ActKeeps (.killGalley index) s (actKillGalley index s) := by
  unfold actKillGalley
  split
  · exact .of_unmoved (.respond s _)
  · next g r _ =>
    obtain ⟨link, slots⟩ := (s.bench r.link).killGalley_frame g
    have id : ((s.bench r.link).killGalley g).id = r.link := (s.bench r.link).killGalley_id g
    have kept (j : Fin 4) : (s.putBench ((s.bench r.link).killGalley g)).links[j].rx = s.links[j].rx ∧
        (s.putBench ((s.bench r.link).killGalley g)).links[j].tx = s.links[j].tx := by
      by_cases same : r.link = j
      · subst same
        rw [State.putBench_own s _ id, link]
        exact ⟨rfl, rfl⟩
      · rw [State.putBench_other s _ (by rw [id]; exact same)]
        exact ⟨rfl, rfl⟩
    have own : LibKeeps (.killGalley index) s (s.putBench ((s.bench r.link).killGalley g)) :=
      ⟨rfl, fun _ => rfl, fun _ => ⟨rfl, fun _ => rfl, fun _ _ => slots, fun _ => .refl _,
        fun j => ⟨fun _ => (kept j).1, fun n => absurd rfl (n _)⟩⟩⟩
    have after := (Unmoved.respond (s.putBench ((s.bench r.link).killGalley g)) doneResponse).settle
    exact ⟨own.then after, fun j => (after.feReady j).trans (congrArg Transmitter.feReady (kept j).2)⟩

theorem actLibraryReset_keeps (s : State) : ActKeeps .libraryReset s (actLibraryReset s) := by
  refine ⟨⟨?_, fun _ => ?_, fun n => absurd rfl n⟩, fun i => ?_⟩
  · unfold actLibraryReset
    rw [State.settle_port]
    rfl
  · unfold actLibraryReset
    rw [State.settle_classes]
    rfl
  · refine (State.settle_feReady _ i).trans ?_
    show (s.links.map Link.afterLibraryReset)[i].tx.feReady = _
    simp [Link.afterLibraryReset, Transmitter.cut]

/-- Each library command changes of these parts those that it is named for. -/
theorem act_keeps (c : LibCommand) (s : State) : ActKeeps c s (act c s) := by
  cases c with
  | installFont bank offset => exact actInstallFont_keeps bank offset s
  | retireFont font => exact actRetireFont_keeps font s
  | readStore bank offset count =>
    refine .of_unmoved (show Unmoved s (actReadStore bank offset count s) from ?_)
    unfold actReadStore
    split
    · exact .respond s _
    · split
      · exact (Unmoved.of_inside (s := s) (u := s.startStore _) rfl).settle
      · exact .respond s _
  | writeStore bank offset count words =>
    refine .of_unmoved (show Unmoved s (actWriteStore bank offset count words s) from ?_)
    unfold actWriteStore
    split
    · exact .respond s _
    · split
      · exact (Unmoved.of_inside (s := s) (u := s.startStore _) rfl).settle
      · exact .respond s _
  | loadClassList count entries => exact actLoadClassList_keeps count entries s
  | setLink link rate enable stray => exact actSetLink_keeps link rate enable stray s
  | killGalley index => exact actKillGalley_keeps index s
  | resumeGalley index =>
    refine .of_unmoved (show Unmoved s (actResumeGalley index s) from ?_)
    unfold actResumeGalley
    split
    · exact .respond s _
    · next g r _ =>
      split
      · exact (Unmoved.of_inside (s := s) (u := ({ s with table := s.table.resume g } : State).respond doneResponse) rfl).settle
      · exact .respond s _
  | setClass index cls =>
    refine .of_unmoved (show Unmoved s (actSetClass index cls s) from ?_)
    unfold actSetClass
    split
    · exact .respond s _
    · next g r _ =>
      exact (Unmoved.of_inside (s := s)
        (u := ({ s with table := s.table.setClass g (min cls.toNat 3) } : State).respond doneResponse) rfl).settle
  | clearUnit =>
    refine .of_unmoved (show Unmoved s (actClearUnit s) from ?_)
    unfold actClearUnit
    split
    · exact (Unmoved.of_inside (s := s) rfl).settle
    · exact .respond s _
  | readStatus sec => exact .of_unmoved (.respond s _)
  | acknowledgeAttention causes =>
    exact ⟨⟨rfl, fun _ => rfl, fun _ => ⟨rfl, fun _ => rfl, fun _ _ => rfl, fun n => absurd rfl (n _),
      fun _ => ⟨fun _ => rfl, fun _ => rfl⟩⟩⟩, fun _ => rfl⟩
  | libraryReset => exact actLibraryReset_keeps s
  | badCommand first => exact .of_unmoved (.respond s _)

/-! ## The words of the port -/

theorem act_steady (c : LibCommand) (s : State) : Steady s (act c s) := by
  obtain ⟨-, feReady⟩ := act_keeps c s
  rcases act_cases c s with answered | ⟨u, e, acted⟩
  · have rest := answered.rest
    generalize act c s = t at feReady rest
    rw [rest]
    exact ⟨rfl, le_rfl, rfl, rfl, rfl, rfl, feReady⟩
  · rw [e] at feReady ⊢
    refine { pending := u.settle_pending.trans ?_, free := ?_, stationRead := u.settle_stationRead.trans ?_
             banks := u.settle_banks.trans ?_, holdRequest := u.settle_holdRequest.trans ?_
             ready := u.settle_ready.trans acted.ready, feReady := feReady }
    · rw [acted.rest]
    · rw [State.settle_free, acted.rest]
    · rw [acted.rest]
    · rw [acted.rest]
    · rw [acted.rest]

theorem Steady.of_port {s u : State} (rest : u = { s with port := u.port }) : Steady s u := by
  rw [rest]
  exact ⟨rfl, le_rfl, rfl, rfl, rfl, rfl, fun _ => rfl⟩

theorem State.takeBlock_steady (s : State) (ws : List Word) : Steady s (s.takeBlock ws) := by
  unfold State.takeBlock
  split
  · exact act_steady _ s
  · exact .of_port rfl

theorem State.takeWord_steady (s : State) (w : Word) : Steady s (s.takeWord w) := by
  unfold State.takeWord
  split
  · exact s.takeBlock_steady _
  · exact s.takeBlock_steady _
  · exact .of_port rfl
  · exact .of_port rfl

theorem State.takeWords_steady (s : State) (ws : List Word) : Steady s (s.takeWords ws) := by
  induction ws generalizing s with
  | nil => exact .refl s
  | cons w ws ih => exact (s.takeWord_steady w).trans (ih _)

theorem State.offer_steady (s : State) (c : LibCommand) : Steady s (s.offer c) := by
  unfold State.offer
  split
  · split
    · exact act_steady c s
    · exact s.takeWords_steady _
  · exact s.takeWords_steady _
  · exact .of_port rfl
  · exact .of_port rfl

theorem State.responseTaken_steady (s : State) : Steady s s.responseTaken := by
  unfold State.responseTaken
  split
  · exact (Steady.of_port (s := s) (u := s.portReady) rfl).trans (s.portReady.takeWords_steady _)
  all_goals exact .refl s

end

end Sys2Proof.Machine

/-! All commands together: what each leaves alone (95, opening; R154, R158). -/

namespace Sys2Proof.Machine

/-- What a command leaves alone, but for the commands named. -/
def CommandKeeps (c : Instr) (s t : State) : Prop :=
  t.pending = s.pending ∧ s.free ≤ t.free ∧
    (bringsWords c s = false → c ≠ .powerOnReset →
      t.classes = s.classes ∧
      (c ≠ .setterTurn → t.rotation = s.rotation) ∧
      (c ≠ .responseRead → c ≠ .readStoreComplete → c ≠ .writeStoreComplete → (∀ p k m, c ≠ .presenceChange p k m) →
        t.port = s.port) ∧
      CausesKept s.attention t.attention ∧
      ∀ i : Fin 4, (∀ b pe fe, c ≠ .byteReceived i b pe fe) → c ≠ .lineReturnToMark i → c ≠ .breakSignal i →
        c ≠ .setterTurn → t.links[i].rx = s.links[i].rx ∧ t.links[i].setting = s.links[i].setting) ∧
    (c ≠ .powerOnReset → (∀ p o, c ≠ .holdRead p o) → t.stationRead = s.stationRead) ∧
    (c ≠ .powerOnReset → c ≠ .writeStoreComplete → (∀ p o w, c ≠ .holdWrite p o w) →
      (∀ p k m, c ≠ .presenceChange p k m) → t.banks = s.banks) ∧
    (c ≠ .holdRequest → c ≠ .holdRequestDrop → t.bus.holdRequest = s.bus.holdRequest) ∧
    (c ≠ .unitReadyOn → c ≠ .unitReadyOff → t.imaging.ready = s.imaging.ready) ∧
    ∀ i : Fin 4, c ≠ .frontEndReadyOn i → c ≠ .frontEndReadyOff i →
      t.links[i].tx.feReady = s.links[i].tx.feReady

section
variable {c : Instr} {s t u : State}

/-- A command's own part changed first, and then nothing of these. -/
theorem CommandKeeps.then (k : CommandKeeps c s u) (h : Untouched u t) : CommandKeeps c s t := by
  obtain ⟨pending, free, quiet, station, banks, hold, ready, feReady⟩ := k
  refine ⟨h.pending.trans pending, free.trans h.free, fun n m => ?_, fun n m => h.stationRead.trans (station n m),
    fun n m o p => h.banks.trans (banks n m o p), fun n m => h.holdRequest.trans (hold n m),
    fun n m => h.ready.trans (ready n m), fun i n m => (h.feReady i).trans (feReady i n m)⟩
  obtain ⟨classes, rotation, port, causes, link⟩ := quiet n m
  exact ⟨h.classes.trans classes, fun n => h.rotation.trans (rotation n), fun n m o p => h.port.trans (port n m o p),
    causes.trans h.causes, fun i n m o p =>
      ⟨(h.link i).1.trans (link i n m o p).1, (h.link i).2.trans (link i n m o p).2⟩⟩

theorem CommandKeeps.of_untouched (h : Untouched s t) : CommandKeeps c s t :=
  ⟨h.pending, h.free, fun _ _ => ⟨h.classes, fun _ => h.rotation, fun _ _ _ _ => h.port, h.causes, fun i _ _ _ _ => h.link i⟩,
    fun _ _ => h.stationRead, fun _ _ _ _ => h.banks, fun _ _ => h.holdRequest, fun _ _ => h.ready,
    fun i _ _ => h.feReady i⟩

/-- A command that brings words to the port keeps what every event keeps. -/
theorem CommandKeeps.of_words (brings : bringsWords c s = true) (h : Steady s t) : CommandKeeps c s t :=
  ⟨h.pending, h.free, fun none _ => absurd (brings.symm.trans none) (by decide), fun _ _ => h.stationRead,
    fun _ _ _ _ => h.banks, fun _ _ => h.holdRequest, fun _ _ => h.ready, fun i _ _ => h.feReady i⟩

/-- A command that offers words. -/
theorem CommandKeeps.of_offer (offers : offersWords c = true) (h : Steady s t) : CommandKeeps c s t :=
  .of_words (by unfold bringsWords; rw [offers]; rfl) h

/-! ## A command's own part -/

/-- The parts but the links, which a change of links leaves alone. -/
theorem CommandKeeps.of_links (links : u = { s with links := u.links })
    (link : ∀ i : Fin 4, (∀ b pe fe, c ≠ .byteReceived i b pe fe) → c ≠ .lineReturnToMark i → c ≠ .breakSignal i →
      c ≠ .setterTurn → u.links[i].rx = s.links[i].rx ∧ u.links[i].setting = s.links[i].setting)
    (feReady : ∀ i : Fin 4, c ≠ .frontEndReadyOn i → c ≠ .frontEndReadyOff i →
      u.links[i].tx.feReady = s.links[i].tx.feReady) : CommandKeeps c s u := by
  generalize u.links = l at links link feReady
  subst links
  exact ⟨rfl, le_rfl, fun _ _ => ⟨rfl, fun _ => rfl, fun _ _ _ _ => rfl, .refl _, link⟩, fun _ _ => rfl, fun _ _ _ _ => rfl,
    fun _ _ => rfl, fun _ _ => rfl, feReady⟩

theorem CommandKeeps.of_onLink {i : Fin 4} {f : Link → Link}
    (own : (∀ b pe fe, c ≠ .byteReceived i b pe fe) → c ≠ .lineReturnToMark i → c ≠ .breakSignal i →
      c ≠ .setterTurn → (f s.links[i]).rx = s.links[i].rx ∧ (f s.links[i]).setting = s.links[i].setting)
    (feReady : c ≠ .frontEndReadyOn i → c ≠ .frontEndReadyOff i →
      (f s.links[i]).tx.feReady = s.links[i].tx.feReady) : CommandKeeps c s (s.onLink i f) := by
  refine .of_links rfl (fun j => ?_) fun j => ?_
  all_goals by_cases same : i = j
  · subst same
    rw [State.onLink_own]
    exact own
  · rw [State.onLink_other s (Ne.symm same)]
    exact fun _ _ _ _ => ⟨rfl, rfl⟩
  · subst same
    rw [State.onLink_own]
    exact feReady
  · rw [State.onLink_other s (Ne.symm same)]
    exact fun _ _ => rfl

theorem State.receiveByte_keeps (s : State) (i : Fin 4) (b : Byte) (pe fe : Bool) :
    CommandKeeps (.byteReceived i b pe fe) s (s.receiveByte i b pe fe) :=
  .of_onLink (fun n _ _ _ => absurd rfl (n _ _ _)) fun _ _ => rfl

theorem State.returnToMark_keeps (s : State) (i : Fin 4) : CommandKeeps (.lineReturnToMark i) s (s.returnToMark i) :=
  .of_onLink (fun _ n _ _ => absurd rfl n) fun _ _ => rfl

theorem State.takeBreak_keeps (s : State) (i : Fin 4) : CommandKeeps (.breakSignal i) s (s.takeBreak i) := by
  unfold State.takeBreak
  split
  · have own : CommandKeeps (.breakSignal i) s (s.onLink i fun _ => (s.bench i).breakLink.link) :=
      .of_onLink (fun _ _ n _ => absurd rfl n) fun _ _ => rfl
    have table : Untouched (s.onLink i fun _ => (s.bench i).breakLink.link) (s.putBench (s.bench i).breakLink) :=
      ⟨⟨rfl, le_rfl, rfl, rfl, rfl, rfl, fun _ => rfl⟩, rfl, rfl, rfl, .refl _, fun _ => ⟨rfl, rfl⟩⟩
    exact own.then table.settle
  · exact .of_untouched (.refl s)

/-- A turn of the Setter changes of the links' transmitters only a measure result's way. -/
theorem State.turn_keeps (s : State) : CommandKeeps .setterTurn s s.turn := by
  unfold State.turn
  split
  · exact .of_untouched (.refl s)
  · next i b first =>
    have turn := State.firstTurn_turn first
    have id : b.id = i := Bench.turn_id turn
    have tx : b.link.tx = s.links[i].tx := (Bench.turn_moves (ok := False) False.elim turn).tx_eq
    have feReady (j : Fin 4) : (s.putBench b).links[j].tx.feReady = s.links[j].tx.feReady := by
      by_cases same : i = j
      · subst same
        rw [State.putBench_own s b id, tx]
      · rw [State.putBench_other s b (by rw [id]; exact same)]
    have own : CommandKeeps .setterTurn s { s.putBench b with rotation := i + 1 } :=
      ⟨rfl, le_rfl, fun _ _ => ⟨rfl, fun n => absurd rfl n, fun _ _ _ _ => rfl, .refl _, fun _ _ _ _ n => absurd rfl n⟩,
        fun _ _ => rfl, fun _ _ _ _ => rfl, fun _ _ => rfl, fun _ _ => rfl, fun j _ _ => feReady j⟩
    exact own.then (Untouched.refl _).settle

theorem State.setHoldRequest_keeps (s : State) (b : Bool) (named : c = .holdRequest ∨ c = .holdRequestDrop) :
    CommandKeeps c s (s.setHoldRequest b).settle := by
  have own : CommandKeeps c s (s.setHoldRequest b) :=
    ⟨rfl, le_rfl, fun _ _ => ⟨rfl, fun _ => rfl, fun _ _ _ _ => rfl, .refl _, fun _ _ _ _ _ => ⟨rfl, rfl⟩⟩, fun _ _ => rfl,
      fun _ _ _ _ => rfl, fun n m => named.elim (absurd · n) (absurd · m), fun _ _ => rfl, fun _ _ _ => rfl⟩
  exact own.then (Untouched.refl _).settle

/-- An event named for the unit's ready line. -/
theorem CommandKeeps.of_ready {b : Bool} (named : c = .unitReadyOn ∨ c = .unitReadyOff)
    (h : Untouched { s with imaging := { s.imaging with ready := b } } t) : CommandKeeps c s t := by
  refine CommandKeeps.then ?_ h
  exact ⟨rfl, le_rfl, fun _ _ => ⟨rfl, fun _ => rfl, fun _ _ _ _ => rfl, .refl _, fun _ _ _ _ _ => ⟨rfl, rfl⟩⟩, fun _ _ => rfl,
    fun _ _ _ _ => rfl, fun _ _ => rfl, fun n m => named.elim (absurd · n) (absurd · m), fun _ _ _ => rfl⟩

/-- An event named for the port. -/
theorem CommandKeeps.of_port {p : Port} (named : c = .responseRead ∨ c = .readStoreComplete)
    (h : Untouched { s with port := p } t) : CommandKeeps c s t := by
  refine CommandKeeps.then ?_ h
  exact ⟨rfl, le_rfl, fun _ _ => ⟨rfl, fun _ => rfl, fun n m _ _ => named.elim (absurd · n) (absurd · m), .refl _,
    fun _ _ _ _ _ => ⟨rfl, rfl⟩⟩, fun _ _ => rfl, fun _ _ _ _ => rfl, fun _ _ => rfl, fun _ _ => rfl, fun _ _ _ => rfl⟩

/-- An event named for the port and the banks. -/
theorem CommandKeeps.of_store {p : Port} {b : Vector BankPosition 8}
    (named : c = .writeStoreComplete ∨ ∃ q k m, c = .presenceChange q k m)
    (h : Untouched { s with port := p, banks := b } t) : CommandKeeps c s t := by
  refine CommandKeeps.then ?_ h
  have out (n : c ≠ .writeStoreComplete) (m : ∀ q k m, c ≠ .presenceChange q k m) : False :=
    named.elim n fun ⟨q, k, x, e⟩ => m q k x e
  exact ⟨rfl, le_rfl, fun _ _ => ⟨rfl, fun _ => rfl, fun _ _ n m => (out n m).elim, .refl _,
    fun _ _ _ _ _ => ⟨rfl, rfl⟩⟩, fun _ _ => rfl, fun _ n _ m => (out n m).elim, fun _ _ => rfl, fun _ _ => rfl,
    fun _ _ _ => rfl⟩

theorem State.stationReads_keeps (s : State) (p : Fin 8) (o : BitVec 18) :
    CommandKeeps (.holdRead p o) s (s.stationReads p o.toNat) := by
  refine CommandKeeps.then ?_ (s.stationReads_untouched p o.toNat)
  exact ⟨rfl, le_rfl, fun _ _ => ⟨rfl, fun _ => rfl, fun _ _ _ _ => rfl, .refl _, fun _ _ _ _ _ => ⟨rfl, rfl⟩⟩,
    fun _ n => absurd rfl (n _ _), fun _ _ _ _ => rfl, fun _ _ => rfl, fun _ _ => rfl, fun _ _ _ => rfl⟩

theorem State.stationWrites_keeps (s : State) (p : Fin 8) (o : BitVec 18) (w : Word) :
    CommandKeeps (.holdWrite p o w) s (s.stationWrites p o.toNat w) := by
  refine CommandKeeps.then ?_ (s.stationWrites_untouched p o.toNat w)
  exact ⟨rfl, le_rfl, fun _ _ => ⟨rfl, fun _ => rfl, fun _ _ _ _ => rfl, .refl _, fun _ _ _ _ _ => ⟨rfl, rfl⟩⟩,
    fun _ _ => rfl, fun _ _ n _ => absurd rfl (n _ _ _), fun _ _ => rfl, fun _ _ => rfl, fun _ _ _ => rfl⟩

/-- RESPONSE_READ with no word waiting changes the port alone; otherwise it brings words. -/
theorem State.responseTaken_keeps (s : State) : CommandKeeps .responseRead s s.responseTaken := by
  by_cases waiting : s.port.offered = []
  · unfold State.responseTaken
    split
    · rw [waiting]
      exact .of_port (p := s.portReady.port) (.inl rfl) (Untouched.refl _)
    all_goals exact .of_untouched (.refl s)
  · refine .of_words ?_ s.responseTaken_steady
    unfold bringsWords
    cases h : s.port.offered with
    | nil => exact absurd h waiting
    | cons w ws => rfl

theorem Imaging.afterPowerOn_ready (m : Imaging) : m.afterPowerOn.ready = m.ready := by
  unfold Imaging.afterPowerOn
  cases h : m.ready <;> rfl

/-- Power-on reset leaves the outside lines, the free-value counter and the queue (log 3, log 6, log 26). -/
theorem State.powerOn_keeps (s : State) : CommandKeeps .powerOnReset s s.powerOn := by
  have cut := s.powerCutStore_eq
  have free := s.powerCutStore_free
  unfold State.powerOn
  dsimp only
  refine ⟨?_, ?_, fun _ n => absurd rfl n, fun n => absurd rfl n, fun n => absurd rfl n, fun _ _ => ?_, fun _ _ => ?_,
    fun i _ _ => ?_⟩
  · rw [State.settle_pending, cut]
  · rw [State.settle_free]
    exact free
  · rw [State.settle_holdRequest, cut]
  · rw [State.settle_ready]
    show s.powerCutStore.imaging.afterPowerOn.ready = _
    rw [Imaging.afterPowerOn_ready, cut]
  · rw [State.settle_feReady]
    show (s.powerCutStore.links.map Link.afterPowerOn)[i].tx.feReady = _
    rw [cut]
    simp [Link.afterPowerOn]

theorem State.frontEndReady_keeps (s : State) (i : Fin 4) :
    CommandKeeps (.frontEndReadyOn i) s (s.onLink i fun l => { l with tx := l.tx.readyOn }).settle ∧
      CommandKeeps (.frontEndReadyOff i) s (s.onLink i fun l => { l with tx := l.tx.readyOff }) := by
  have on : CommandKeeps (.frontEndReadyOn i) s (s.onLink i fun l => { l with tx := l.tx.readyOn }) :=
    .of_onLink (fun _ _ _ _ => ⟨rfl, rfl⟩) fun n => absurd rfl n
  exact ⟨on.then (Untouched.refl _).settle, .of_onLink (fun _ _ _ _ => ⟨rfl, rfl⟩) fun _ n => absurd rfl n⟩

/-- Every command of the table. -/
theorem exec_keeps (c : Instr) (s t : State) (run : exec c s = .next t) : CommandKeeps c s t := by
  have offered (l : LibCommand) (e : exec l.instr s = .next t) (offers : offersWords l.instr = true) :
      CommandKeeps l.instr s t := by
    rw [l.exec_instr] at e
    cases e
    exact .of_offer offers (s.offer_steady l)
  cases c with
  | installFont b o => exact offered (.installFont b o) run rfl
  | retireFont n => exact offered (.retireFont n) run rfl
  | readStore b o n => exact offered (.readStore b o n) run rfl
  | writeStore b o n ws => exact offered (.writeStore b o n ws) run rfl
  | loadClassList n es => exact offered (.loadClassList n es) run rfl
  | setLink l r e st => exact offered (.setLink l r e st) run rfl
  | killGalley n => exact offered (.killGalley n) run rfl
  | resumeGalley n => exact offered (.resumeGalley n) run rfl
  | setClass n c => exact offered (.setClass n c) run rfl
  | clearUnit => exact offered .clearUnit run rfl
  | readStatus n => exact offered (.readStatus n) run rfl
  | acknowledgeAttention n => exact offered (.acknowledgeAttention n) run rfl
  | libraryReset => exact offered .libraryReset run rfl
  | badCommand w => exact offered (.badCommand w) run rfl
  | powerOnReset => cases run; exact s.powerOn_keeps
  | commandBlockWord w => cases run; exact .of_offer rfl (s.takeWord_steady w)
  | responseRead => cases run; exact s.responseTaken_keeps
  | readStoreComplete => cases run; exact .of_port (.inr rfl) s.readDone_untouched
  | writeStoreComplete => cases run; exact .of_store (.inl rfl) s.writeDone_untouched
  | installCopyRead => cases run; exact .of_untouched s.copyStep_untouched
  | holdRequest => cases run; exact s.setHoldRequest_keeps true (.inl rfl)
  | holdRequestDrop => cases run; exact s.setHoldRequest_keeps false (.inr rfl)
  | holdRead p o => cases run; exact s.stationReads_keeps p o
  | holdWrite p o w => cases run; exact s.stationWrites_keeps p o w
  | presenceChange p k m => cases run; exact .of_store (.inr ⟨p, k, m, rfl⟩) (s.changePresence_untouched p k m)
  | byteReceived i b pe fe => cases run; exact s.receiveByte_keeps i b pe fe
  | lineReturnToMark i => cases run; exact s.returnToMark_keeps i
  | breakSignal i => cases run; exact s.takeBreak_keeps i
  | frontEndReadyOn i => cases run; exact (s.frontEndReady_keeps i).1
  | frontEndReadyOff i => cases run; exact (s.frontEndReady_keeps i).2
  | transmitByteSent i => cases run; exact .of_untouched (s.byteSent_untouched i)
  | setterTurn => cases run; exact s.turn_keeps
  | unitAck => cases run; exact .of_untouched s.ackUnit_untouched
  | unitFault q => cases run; exact .of_untouched (s.concludeRecord_untouched _)
  | recordTimeout => cases run; exact .of_untouched (s.concludeRecord_untouched _)
  | unitAnswerInvalid w => cases run; exact .of_untouched (s.answerWord_untouched w)
  | unitReadyOn => cases run; exact .of_ready (.inl rfl) s.readyOnUnit_untouched
  | unitReadyOff => cases run; exact .of_ready (.inr rfl) s.readyOffUnit_untouched
  | outlineFetchDone => cases run; exact .of_untouched s.fetchDone_untouched

end

/-- Settles O60: command by command, and library command by library command. -/
theorem commandsKeepOtherParts : Obligations.CommandsKeepOtherParts := by
  unfold Obligations.CommandsKeepOtherParts
  refine ⟨exec_keeps, fun c s t ready whole run => ?_⟩
  rw [exec_of_ready ready whole] at run
  cases run
  exact (act_keeps c s).1

end Sys2Proof.Machine
